-- ==== Sys2Proof/Word.lean ====
section
/-! DEFINITION. The bit-vector types the manual works in: characters, 16-bit values and belt counts, and the
four-bit wrapping numbers. Everything else in the model is an index (`Fin`), a quantity (`Nat`) or a name. -/

namespace Sys2Proof

/-- The lower eight bits of a line character (00_scope.md section 7, "Characters"). -/
abbrev Byte := BitVec 8

/-- A value that crosses a line as two data characters (R178). -/
abbrev Word := BitVec 16

/-- A belt count, 0 to 65535, wrapping (R3). -/
abbrev Count := BitVec 16

/-- A read-association tag, 0 to 15, wrapping (R43). -/
abbrev Tag := BitVec 4

/-- A slot's count of allocations, 0 to 15, wrapping (R16). -/
abbrev Generation := BitVec 4

/-- One of the 128 places of the Ticket Table (section 2.1). -/
abbrev Slot := Fin 128

/-- A diverter station. `Lane` value `i` is the manual's lane `i + 1`; the manual's lane 0 is no lane (R96). -/
abbrev Lane := Fin 12

/-- A food outlet, 0 to 7. -/
abbrev Outlet := Fin 8

/-- A group of forms that share divert timing values, 0 to 7. -/
abbrev WareClass := Fin 8

end Sys2Proof
end

