-- ==== Sys2Proof/Syntax.lean ====
section
/-! DEFINITION. The commands the part takes: one constructor of `Instr` for each row of spec/opcode_table.json, with
what the event brings from outside (a lane, a slot, the characters of a frame, the sampled pin levels). -/

namespace Sys2Proof

/-- An eye input is clear or blocked (section 3.1, R178 codes 0 and 1). -/
inductive Eye where
  | clear | blocked
  deriving DecidableEq, Repr

/-- The belt's safety chain (R155, R178 codes 0 and 1). -/
inductive Guard where
  | closed | opened
  deriving DecidableEq, Repr

/-- The pin levels sampled at the release of RESET_N (R41, R143, R155, R168). -/
structure Pins where
  inductionEye : Eye
  endEye : Eye
  guard : Guard
  address : BitVec 5
  baud : BitVec 2
  deriving DecidableEq, Repr

/-- A character as received bit by bit (R49): nine data bits with the ninth highest, the parity bit and the stop bit. -/
structure LineChar where
  data : BitVec 9
  parity : Bool
  stop : Bool
  deriving DecidableEq, Repr

/-- The geometry record as written (Table 11-4). -/
structure GeometryRecord where
  prescaleExponent : Byte
  endDistance : Word
  readWindow : Word
  endTolerance : Byte
  stopTime : Byte
  faultLimit : Byte
  deriving DecidableEq, Repr

/-- A lane record as written (Table 11-4). -/
structure LaneWrite where
  distance : Word
  latency : Word
  confirmSpan : Word
  overflow : Byte
  pullTime : Word
  holdDuty : Byte
  maxOnTime : Byte
  recoveryTime : Word
  polarity : Byte
  deriving DecidableEq, Repr

/-- A pattern record as written (Table 11-4). -/
structure PatternWrite where
  state : Byte
  owner : Byte
  deriving DecidableEq, Repr

/-- A class record as written (Table 11-4). -/
structure ClassWrite where
  strikeOffset : Byte
  sweep : Byte
  minStroke : Word
  guardGap : Byte
  lateAllowance : Byte
  deriving DecidableEq, Repr

/-- The catalogue settings record as written (Table 11-4). -/
structure SettingsWrite where
  residueLane : Byte
  defaultClass : Byte
  threshold : Byte
  deriving DecidableEq, Repr

/-- One command: an event on a pin, a character on a line, a position or time reached inside the part, or a complete
supervisory frame. The constructors follow the rows of spec/opcode_table.json in the table's order. -/
inductive Instr where
  | powerOnReset
  | pinReset
  | releaseOfResetN (pins : Pins)
  | encoderPulse
  | p8Capture
  | stopTimeExpiry
  | inductionLeadingEdge
  | inductionTrailingEdge
  | overlength
  | holdLimitReached
  | triggerSend
  | triggerSent
  | readerCharacter (c : LineChar)
  | readerGapTimeout
  | readWindowExpiry (slot : Slot)
  | fireDue (lane : Lane)
  | strokeEndCountReached (lane : Lane)
  | pullTimeElapsed (lane : Lane)
  | onTimeCap (lane : Lane)
  | recoveryTimeElapsed (lane : Lane)
  | testEnd (lane : Lane)
  | carrierPeriodStart
  | laneEyeLeadingEdge (lane : Lane)
  | laneEyeTrailingEdge (lane : Lane)
  | confirmWindowClose (slot : Slot)
  | endEyeLeadingEdge
  | endEyeTrailingEdge
  | endWindowExpiry (slot : Slot)
  | guardOpening
  | guardClosing
  | addressCharacter (value : Byte)
  | unknownCommand (code : Byte)
  | lineError (c : LineChar)
  | frameGapTimeout
  | replyStart
  | replyEnd
  | softResetEffect
  | readStatus
  | ackAttention (flags : Word)
  | setMask (mask : Word)
  | readReaderCounters
  | setMode (code : Byte)
  | hold (broadcast : Bool)
  | resume (broadcast : Bool)
  | softReset
  | writeGeometry (r : GeometryRecord)
  | writeLanes (first : Byte) (records : List LaneWrite)
  | writeCarrier (select : Byte)
  | testStroke (lane duration : Byte)
  | openLane (lane : Byte)
  | closeLane (lane : Byte)
  | setCapacity (lane : Byte) (capacity : Word)
  | rackExchanged (lane : Byte)
  | readLanes (first count : Byte)
  | writePatterns (first : Byte) (records : List PatternWrite)
  | writeForms (first : Byte) (records : List Byte)
  | writeClasses (first : Byte) (records : List ClassWrite)
  | writeRoutes (first : Byte) (records : List Byte)
  | writeCatalogueSettings (r : SettingsWrite)
  | readPatterns (first count : Byte)
  | readForms (first count : Byte)
  | readClasses (first count : Byte)
  | readRoutes (first count : Byte)
  | readCatalogueSettings
  | readTicket (slot generation : Byte)
  | findTickets (scope lane skip : Byte)
  | redirect (slot generation lane : Byte)
  | pull (slot generation : Byte)
  | readTallies
  | clearTallies
  | readEndMonitor
  | commandCharacter (code : Byte)
  | parameterCharacter (value : Byte)
  | badLength (count : Byte)
  | dataCharacterDuringWait (value : Byte)
  | activePortionEnd (lane : Lane)
  deriving DecidableEq, Repr

end Sys2Proof
end

