-- ==== Sys2Proof/Decode.lean ====
section
/-! DEFINITION. Commands spelled by words, and the decoding of what crosses a line. The opcode table of this block
gives no row any bits (98_reader.md counts no row with fixed bits or fields), so no word spells a command (log 23).
What the lines carry is decoded here: the bits of a character (R49, R168) and the parameters a command code asks for
(R174, R175, Table 11-4). -/

namespace Sys2Proof

/-- The command a word spells by the table's bits: none, for the table gives none (DEDUCED, log 23). -/
def decodeTableWord (_nbits _w : Nat) : Option Instr := none

/-- The number of ones among the nine data bits (R49). -/
def LineChar.ones (c : LineChar) : Nat := (List.range 9).countP (fun i => c.data.getLsbD i)

/-- A framing error: the stop bit is low (R49). -/
def LineChar.framingError (c : LineChar) : Bool := !c.stop

/-- A parity error: the ones among the nine data bits and the parity bit are odd in number (R49). -/
def LineChar.parityError (c : LineChar) : Bool := (c.ones + c.parity.toNat) % 2 == 1

/-- A character received without error. -/
def LineChar.good (c : LineChar) : Bool := !c.framingError && !c.parityError

/-- A character whose ninth bit is set (00_scope.md section 7). -/
def LineChar.marked (c : LineChar) : Bool := c.data.getLsbD 8

/-- The lower eight bits of a character. -/
def LineChar.value (c : LineChar) : Byte := c.data.truncate 8

/-- The character as either line sends it: nine data bits, even parity, stop bit high (R49, R168). -/
def lineCharOf (marked : Bool) (value : Byte) : LineChar :=
  let data : BitVec 9 := BitVec.ofBool marked ++ value
  { data := data, parity := (LineChar.ones ⟨data, false, true⟩) % 2 == 1, stop := true }

/-- The levels of a character's twelve bit times in the order sent: start bit low, nine data bits least significant
first, parity, stop bit (R49). -/
def LineChar.levels (c : LineChar) : List Bool :=
  false :: (List.range 9).map (fun i => c.data.getLsbD i) ++ [c.parity, c.stop]

/-- What a command collects after its command character (R170). -/
inductive FrameShape where
  /-- a fixed number of parameter characters -/
  | fixed (characters : Nat)
  /-- a first index, a count and that many records of this many characters -/
  | blockWrite (recordSize : Nat)
  /-- a first index and a count -/
  | blockRead
  deriving DecidableEq, Repr

/-- The command codes of R174 and R175 with their parameters; the record sizes are Table 11-4's. An unknown code has
no shape. -/
def frameShape (code : Byte) : Option FrameShape :=
  match code.toNat with
  | 0x01 => some (.fixed 0)
  | 0x02 => some (.fixed 2)
  | 0x03 => some (.fixed 2)
  | 0x04 => some (.fixed 0)
  | 0x08 => some (.fixed 1)
  | 0x09 => some (.fixed 0)
  | 0x0A => some (.fixed 0)
  | 0x0B => some (.fixed 0)
  | 0x10 => some (.fixed 8)
  | 0x11 => some (.blockWrite 14)
  | 0x12 => some (.fixed 1)
  | 0x13 => some (.fixed 2)
  | 0x18 => some (.fixed 1)
  | 0x19 => some (.fixed 1)
  | 0x1A => some (.fixed 3)
  | 0x1B => some (.fixed 1)
  | 0x1C => some .blockRead
  | 0x20 => some (.blockWrite 2)
  | 0x21 => some (.blockWrite 1)
  | 0x22 => some (.blockWrite 6)
  | 0x23 => some (.blockWrite 1)
  | 0x24 => some (.fixed 3)
  | 0x28 => some .blockRead
  | 0x29 => some .blockRead
  | 0x2A => some .blockRead
  | 0x2B => some .blockRead
  | 0x2C => some (.fixed 0)
  | 0x30 => some (.fixed 2)
  | 0x31 => some (.fixed 3)
  | 0x32 => some (.fixed 3)
  | 0x33 => some (.fixed 2)
  | 0x34 => some (.fixed 0)
  | 0x35 => some (.fixed 0)
  | 0x38 => some (.fixed 0)
  | _ => none

/-- The count of a block command lies within 1 to 64 (R69, R170). -/
def blockCountOk (n : Nat) : Bool := decide (1 ≤ n) && decide (n ≤ 64)

end Sys2Proof
end

