-- ==== Sys2Proof/Config.lean ====
section
/-! DEFINITION. The values the manual leaves open. Each is an uninterpreted constant: nothing in Lean can evaluate
it or prove a value of it, so a statement about the machine holds whatever it is. -/

namespace Sys2Proof.Config

/-- Which of several own events that are due together is taken next (00_scope.md section 7, "Order of events": the
rules give the result for each order and fix none). The machine applies it to its counter `choices` and reduces the
answer modulo the number of due events. DESIGN CHOICE (log 3); safe: every order is allowed. -/
opaque orderChoice : Nat → Nat

/-- Whether the reply to a SET MODE refused GEOMETRY sends the mode characters before the check and lane characters:
R173 asks for both pairs and does not order them. DESIGN CHOICE (log 13); safe: either order is allowed. -/
opaque geometryModeFirst : Bool

end Sys2Proof.Config
end

