-- ==== Sys2Proof/Machine/State.lean ====
section
/-! DEFINITION. The state of the part, block by block as Table 0-1 lists them, as plain data, and the state after
reset. -/

namespace Sys2Proof.Machine

/-- Where a piece is sent, and where a link, route cell or residue lane points: run-off is the manual's lane 0. -/
inductive Dest where
  | runOff
  | lane (l : Lane)
  deriving DecidableEq, Repr

/-- Table 2-2. -/
inductive TicketState where
  | pendingRead | routed | armed | stroking | confirming | doubt | runningOff
  deriving DecidableEq, Repr

/-- Why a ticket has its destination (Table 2-1). -/
inductive Reason where
  | routed | unread | unknown | suspended | overlength | draining | noLane | crowded | missed | redirected
  deriving DecidableEq, Repr

/-- Table 2-3, in column order. -/
inductive TicketOutcome where
  | sorted | runOff | lost | missort | sortedUnseen | pulled | flushed
  deriving DecidableEq, Repr

/-- The stroke marks of a record (Table 2-1). -/
structure Marks where
  late : Bool := false
  deferred : Bool := false
  capped : Bool := false
  aborted : Bool := false
  deriving DecidableEq, Repr

/-- The record of one live ticket (Table 2-1). The last three fields are the counts that other blocks hold for the
ticket and drop when it is retired (R28): the read-window end count of the Induction Unit (R47), the close count of
the Lane Table (R108) and the end-window bounds of the End Monitor (R144). -/
structure Ticket where
  slot : Slot
  generation : Generation
  state : TicketState
  tag : Option Tag
  induction : Count
  length : Option Nat
  overlength : Bool
  readHeld : Bool
  ware : Option (Byte × Byte)
  quality : Option (BitVec 4)
  outlet : Option Outlet
  cls : Option WareClass
  dest : Option Dest
  reason : Option Reason
  hops : Nat
  joined : Bool
  nominal : Option Count
  span : Option Nat
  fireCount : Option Count
  marks : Marks
  windowEnd : Option Count
  closeCount : Option Count
  endBounds : Option (Count × Count)
  deriving DecidableEq, Repr

/-- The Ticket Table. The belt list holds every live record, oldest first; the pending set, the route queues, the
confirm lists and end accounting are read from it (R26, log 10). -/
structure TicketTable where
  belt : List Ticket
  generations : Vector Generation 128
  tallies : Vector Nat 63
  runOffReasons : Vector Nat 7
  untracked : Nat
  deriving DecidableEq, Repr

inductive Motion where
  | stopped | moving
  deriving DecidableEq, Repr

/-- The Belt Count Unit (chapter 1). `capture` is the block timer's value at a count event that closed a block of
eight, until the P8 capture is taken (log 11). -/
structure BeltCountUnit where
  remainder : Nat
  count : Count
  motion : Motion
  p8 : Nat
  blockCount : Nat
  blockTimer : Nat
  stopTimer : Nat
  capture : Option Nat
  deriving DecidableEq, Repr

/-- The geometry settings (Table 1-4). -/
structure Geometry where
  prescaleExponent : Nat
  endDistance : Nat
  readWindow : Nat
  endTolerance : Nat
  stopTime : Nat
  faultLimit : Nat
  deriving DecidableEq, Repr

/-- The Induction Unit (chapter 3). -/
structure InductionUnit where
  eye : Eye
  underEye : Option Slot
  blockedLength : Nat
  nextTag : Tag
  noReadStreak : Nat
  deriving DecidableEq, Repr

/-- The report assembly state with what its buffer holds (R50). -/
inductive Assembly where
  | waitHeader
  | waitPattern (tag : Tag)
  | waitForm (tag : Tag) (pattern : Byte)
  | waitStatus (tag : Tag) (pattern form : Byte)
  deriving DecidableEq, Repr

/-- The Reader Line Interface (chapter 3). `sendTimer` is absent while the transmitter is idle. -/
structure ReaderLine where
  fifo : List Tag
  sendTimer : Option Nat
  assembly : Assembly
  gapTimer : Nat
  errors : Nat
  strays : Nat
  deriving DecidableEq, Repr

/-- A pattern entry (R59). -/
inductive PatternEntry where
  | unused
  | active (owner : Outlet)
  | suspended (owner : Outlet)
  deriving DecidableEq, Repr

/-- A class record (Table 4-2). -/
structure ClassRecord where
  strikeOffset : BitVec 8
  sweep : Nat
  minStroke : Nat
  guardGap : Nat
  lateAllowance : Nat
  deriving DecidableEq, Repr

/-- The Ware Catalogue (Table 4-1). An absent form entry is UNKNOWN. -/
structure Catalogue where
  patterns : Vector PatternEntry 256
  forms : Vector (Option WareClass) 64
  classes : Vector ClassRecord 8
  routes : Vector Dest 64
  residueLane : Dest
  defaultClass : WareClass
  threshold : Nat
  deriving DecidableEq, Repr

/-- Table 6-2. -/
inductive LaneState where
  | closed | opened | full | faulted
  deriving DecidableEq, Repr

inductive Polarity where
  | activeHigh | activeLow
  deriving DecidableEq, Repr

/-- A lane record (Table 6-1). -/
structure LaneRecord where
  state : LaneState
  distance : Nat
  latency : Nat
  confirmSpan : Nat
  overflow : Dest
  pullTime : Nat
  holdDuty : Nat
  maxOnTime : Nat
  recoveryTime : Nat
  polarity : Polarity
  capacity : Nat
  fill : Nat
  committed : Nat
  failures : Nat
  strays : Nat
  deriving DecidableEq, Repr

/-- What a channel holds while a ticket is armed (Table 7-1). A late limit is held exactly while a deferred fire is
outstanding. -/
structure Armed where
  slot : Slot
  lead : Nat
  planned : Count
  lateLimit : Option Count
  deriving DecidableEq, Repr

/-- The Divert Timer's channel of one lane (Table 7-1). -/
structure Channel where
  armed : Option Armed
  strokeEnd : Option Count
  deriving DecidableEq, Repr

inductive DriveState where
  | idle | pull | hold | recover
  deriving DecidableEq, Repr

/-- The stroke kind (R133); a test stroke holds its test end, in µs of the on-time timer. -/
inductive StrokeKind where
  | none
  | fire
  | test (testEnd : Nat)
  deriving DecidableEq, Repr

/-- The Drive Generator's state for one lane (R133). The pull and recovery timers are held as the µs still to run. -/
structure Drive where
  state : DriveState
  onTime : Nat
  pullLeft : Nat
  recoveryLeft : Nat
  endHeld : Bool
  kind : StrokeKind
  maxOn : Nat
  duty : Nat
  deriving DecidableEq, Repr

/-- The carrier shared by all lanes (R131). The phase is in clocks of XTAL, sixteen to the µs. -/
structure Carrier where
  select : Nat
  pending : Option Nat
  phase : Nat
  deriving DecidableEq, Repr

/-- The End Monitor (chapter 9). The bounds it holds for a ticket stand beside the ticket's record. -/
structure EndMonitor where
  eye : Eye
  strays : Nat
  deriving DecidableEq, Repr

/-- The two modes that HOLD is held from (R155). -/
inductive HeldFrom where
  | run | drain
  deriving DecidableEq, Repr

/-- The mode; the mode held from is present exactly in HOLD (R155). -/
inductive Mode where
  | setup | run | drain
  | hold (heldFrom : HeldFrom)
  deriving DecidableEq, Repr

inductive ResetCause where
  | power | pin | soft
  deriving DecidableEq, Repr

/-- The Mode Controller (chapter 10). -/
structure ModeController where
  mode : Mode
  guard : Guard
  cause : ResetCause
  deriving DecidableEq, Repr

/-- Table 11-2. -/
inductive Status where
  | ok | clamped | unknownCommand | badLength | badParam | notInMode | stale | state | lane | crowded | geometry | busy
  deriving DecidableEq, Repr

/-- A reply after its header character: the status and the data characters (R172), and whether it is the reply to
SOFT RESET, whose end or cancellation brings the reset (R166). -/
structure Reply where
  status : Status
  data : List Byte
  softReset : Bool := false
  deriving DecidableEq, Repr

/-- The frame state (section 11.2); COLLECTING holds the command and its parameter characters so far. -/
inductive FrameState where
  | unselected
  | selected
  | collecting (code : Byte) (params : List Byte)
  | ignoring
  deriving DecidableEq, Repr

/-- The Supervisory Line Interface (chapter 11). `reply` is the reply that is due and not begun, `sending` the one in
transmission, while SDE is asserted. -/
structure SupervisoryLine where
  address : BitVec 5
  baud : BitVec 2
  frame : FrameState
  broadcast : Bool
  gapTimer : Nat
  reply : Option Reply
  quietTimer : Nat
  sending : Option Reply
  sendTimer : Nat
  flags : BitVec 10
  mask : BitVec 10
  lineErrors : Nat
  deriving DecidableEq, Repr

/-- The whole part. `xtal` counts clocks of XTAL within the present µs, `inReset` is a power-on or pin reset in
progress, `choices` numbers the free values taken so far (log 3) and `pending` is the queue of waiting commands. -/
structure State where
  xtal : Nat
  inReset : Option ResetCause
  bcu : BeltCountUnit
  geo : Geometry
  ind : InductionUnit
  rli : ReaderLine
  tt : TicketTable
  cat : Catalogue
  lanes : Vector LaneRecord 12
  channels : Vector Channel 12
  drives : Vector Drive 12
  carrier : Carrier
  em : EndMonitor
  mc : ModeController
  sli : SupervisoryLine
  choices : Nat
  pending : List Instr
  deriving DecidableEq, Repr

/-- Why the machine stops. It never does: the manual gives every event and every frame an effect or a refusal reply,
after which the part goes on, so there is no reason to name. -/
inductive Fault where
  deriving DecidableEq, Repr

/-- Why a command has no meaning. -/
inductive Refusal where
  /-- Raised by `exec` alone, for a command whose meaning is not written yet; safe. No arm raises it now. -/
  | notModelled (mnemonic : String)
  deriving DecidableEq, Repr

/-- A lane record after power-on and pin reset (R113, Table 6-3). -/
def LaneRecord.reset : LaneRecord where
  state := .closed
  distance := 0
  latency := 0
  confirmSpan := 200
  overflow := .runOff
  pullTime := 20000
  holdDuty := 32
  maxOnTime := 50
  recoveryTime := 30000
  polarity := .activeHigh
  capacity := 0
  fill := 0
  committed := 0
  failures := 0
  strays := 0

/-- A channel after every reset (R114, R130). -/
def Channel.reset : Channel := ⟨none, none⟩

/-- A drive after every reset (R142) and in IDLE; the numbers of its stopped timers are the model's (logs 9 and 33). -/
def Drive.reset : Drive where
  state := .idle
  onTime := 0
  pullLeft := 0
  recoveryLeft := 0
  endHeld := false
  kind := .none
  maxOn := 0
  duty := 0

/-- A class record after power-on and pin reset (Table 4-2). -/
def ClassRecord.reset : ClassRecord := ⟨0, 40, 60, 30, 20⟩

/-- The part right after a power-on reset: the values the chapters give, and pin levels sampled as log 8 chooses. -/
def State.reset : State where
  xtal := 0
  inReset := none
  bcu :=
    { remainder := 0, count := 0, motion := .stopped, p8 := 65535, blockCount := 0, blockTimer := 0, stopTimer := 0,
      capture := none }
  geo :=
    { prescaleExponent := 0, endDistance := 30000, readWindow := 200, endTolerance := 40, stopTime := 50,
      faultLimit := 3 }
  ind := { eye := .clear, underEye := none, blockedLength := 0, nextTag := 0, noReadStreak := 0 }
  rli := { fifo := [], sendTimer := none, assembly := .waitHeader, gapTimer := 0, errors := 0, strays := 0 }
  tt :=
    { belt := [], generations := Vector.replicate 128 0, tallies := Vector.replicate 63 0,
      runOffReasons := Vector.replicate 7 0, untracked := 0 }
  cat :=
    { patterns := Vector.replicate 256 .unused, forms := Vector.replicate 64 none,
      classes := Vector.replicate 8 .reset, routes := Vector.replicate 64 .runOff, residueLane := .runOff,
      defaultClass := 0, threshold := 4 }
  lanes := Vector.replicate 12 .reset
  channels := Vector.replicate 12 .reset
  drives := Vector.replicate 12 .reset
  carrier := { select := 0, pending := none, phase := 0 }
  em := { eye := .clear, strays := 0 }
  mc := { mode := .setup, guard := .closed, cause := .power }
  sli :=
    { address := 1, baud := 0, frame := .unselected, broadcast := false, gapTimer := 0, reply := none, quietTimer := 0,
      sending := none, sendTimer := 0, flags := 0, mask := 0x3FF, lineErrors := 0 }
  choices := 0
  pending := []

end Sys2Proof.Machine
end

