-- ==== Sys2Proof/Machine/Flags.lean ====
section
/-! DEFINITION. The attention flags, their mask and the ATTN output (R176, R177). -/

namespace Sys2Proof.Machine

/-- The ten attention flags, in bit order from bit 0 up (R176, R178). -/
inductive Flag where
  | laneFull | laneFault | tableFull | tableHigh | readerErr | noRead | beltStopped | holdEntered | overlength | endStray
  deriving DecidableEq, Repr

/-- The bit number of a flag (R178). -/
def Flag.index : Flag → Nat
  | .laneFull => 0
  | .laneFault => 1
  | .tableFull => 2
  | .tableHigh => 3
  | .readerErr => 4
  | .noRead => 5
  | .beltStopped => 6
  | .holdEntered => 7
  | .overlength => 8
  | .endStray => 9

/-- The flags word with that flag alone set. -/
def Flag.bit (f : Flag) : BitVec 10 := 1 <<< f.index

/-- A setting event of a flag; setting a set flag leaves it set (R176). -/
def State.raise (s : State) (f : Flag) : State :=
  { s with sli := { s.sli with flags := s.sli.flags ||| f.bit } }

/-- Whether a flag is set. -/
def State.flagSet (s : State) (f : Flag) : Bool := s.sli.flags &&& f.bit != 0

/-- ACK ATTENTION clears each flag whose bit is 1 in its parameter; bits 10 to 15 are not examined (R177). -/
def State.acknowledge (s : State) (named : Word) : State :=
  { s with sli := { s.sli with flags := s.sli.flags &&& ~~~(named.truncate 10) } }

/-- SET MASK makes its parameter the mask; bits 10 to 15 are not examined (R177). -/
def State.setMaskTo (s : State) (mask : Word) : State :=
  { s with sli := { s.sli with mask := mask.truncate 10 } }

/-- ATTN is active while a flag is both set and enabled; it is held inactive through a power-on or pin reset (R176). -/
def State.attnActive (s : State) : Bool := s.inReset.isNone && (s.sli.flags &&& s.sli.mask != 0)

/-- The level of the ATTN pin: low when active, high when inactive (R176). -/
def State.attnLevel (s : State) : Bool := !s.attnActive

end Sys2Proof.Machine
end

