-- ==== Sys2Proof/Machine/Ops.lean ====
section
/-! DEFINITION. The shared operations: count arithmetic, access to records, the views of the belt list that the
manual calls collections, commitments, and the counters. -/

namespace Sys2Proof.Machine

/-! ### Belt counts (R4) -/

/-- The signed difference from count `a` to count `b` (R4). -/
def signedDiff (a b : Count) : Int := (b - a).toInt

/-- A stored count `x` is reached at the present count `now` (R4). -/
def isReached (now x : Count) : Bool := decide ((now - x).toNat < 32768)

/-- Of two counts, the later (R4). -/
def laterCount (x y : Count) : Count := if 0 < signedDiff x y then y else x

/-- A distance as a difference of belt counts (00_scope.md section 7, "Positions and times"). -/
def toCount (n : Nat) : Count := BitVec.ofNat 16 n

/-! ### Saturating quantities (00_scope.md section 7) -/

/-- Increment of a quantity that saturates at `top`. -/
def satInc (top n : Nat) : Nat := min (n + 1) top

/-- The top of the 16-bit counters (R18, R30, R31, R52, R106, R148, R171). -/
def counterTop : Nat := 65535

/-! ### Access -/

/-- Change one entry of a table. -/
def tableMod {α : Type} {n : Nat} (v : Vector α n) (i : Fin n) (f : α → α) : Vector α n :=
  v.set i.val (f (v.get i)) i.isLt

/-- The present belt count. -/
def State.now (s : State) : Count := s.bcu.count

/-- The mode. -/
def State.mode (s : State) : Mode := s.mc.mode

/-- The lane record of a lane (R96). -/
def State.lane (s : State) (l : Lane) : LaneRecord := s.lanes.get l

/-- The Divert Timer's channel of a lane (R114). -/
def State.channel (s : State) (l : Lane) : Channel := s.channels.get l

/-- The Drive Generator's state of a lane (R133). -/
def State.drive (s : State) (l : Lane) : Drive := s.drives.get l

/-- The class record of a class (R62). -/
def State.classRecord (s : State) (c : WareClass) : ClassRecord := s.cat.classes.get c

def State.modLane (s : State) (l : Lane) (f : LaneRecord → LaneRecord) : State :=
  { s with lanes := tableMod s.lanes l f }

def State.modChannel (s : State) (l : Lane) (f : Channel → Channel) : State :=
  { s with channels := tableMod s.channels l f }

def State.modDrive (s : State) (l : Lane) (f : Drive → Drive) : State :=
  { s with drives := tableMod s.drives l f }

def State.setMode (s : State) (m : Mode) : State := { s with mc := { s.mc with mode := m } }

/-- The twelve lanes in lane order. -/
def allLanes : List Lane := [0, 1, 2, 3, 4, 5, 6, 7, 8, 9, 10, 11]

/-- Apply an operation to each lane in lane order. -/
def State.forLanes (s : State) (f : State → Lane → State) : State := allLanes.foldl f s

/-! ### Tickets and their collections (R19, R22 to R27, section 9.2; log 10) -/

/-- The live ticket in a slot. -/
def State.ticketAt? (s : State) (slot : Slot) : Option Ticket := s.tt.belt.find? (fun t => t.slot == slot)

/-- Change the record of the ticket in a slot. -/
def State.modTicket (s : State) (slot : Slot) (f : Ticket → Ticket) : State :=
  { s with tt := { s.tt with belt := s.tt.belt.map (fun t => if t.slot = slot then f t else t) } }

/-- The lane a ticket is destined to. -/
def Ticket.laneDest (t : Ticket) : Option Lane :=
  match t.dest with
  | some (.lane l) => some l
  | some .runOff => none
  | none => none

/-- In the route queue of a lane: destined to it, in ROUTED or ARMED (R24, R26). -/
def Ticket.queuedAt (t : Ticket) (l : Lane) : Bool :=
  t.laneDest == some l && (t.state == .routed || t.state == .armed)

/-- In the confirm list of a lane: destined to it, in STROKING or CONFIRMING (R25, R26). -/
def Ticket.firedAt (t : Ticket) (l : Lane) : Bool :=
  t.laneDest == some l && (t.state == .stroking || t.state == .confirming)

/-- In the pending set (R23, R26). -/
def Ticket.isPending (t : Ticket) : Bool := t.state == .pendingRead

/-- In end accounting: RUNNING_OFF or DOUBT (section 9.2). -/
def Ticket.inEnd (t : Ticket) : Bool := t.state == .runningOff || t.state == .doubt

/-- ROUTED or ARMED. -/
def Ticket.waiting (t : Ticket) : Bool := t.state == .routed || t.state == .armed

/-- The lane at which a ticket holds a commitment: its destination lane in ROUTED, ARMED, STROKING or CONFIRMING
(R27). -/
def Ticket.commitment (t : Ticket) : Option Lane :=
  match t.state with
  | .routed => t.laneDest
  | .armed => t.laneDest
  | .stroking => t.laneDest
  | .confirming => t.laneDest
  | .pendingRead => none
  | .doubt => none
  | .runningOff => none

/-- The route queue of a lane, in belt-list order (R24). -/
def State.routeQueue (s : State) (l : Lane) : List Ticket := s.tt.belt.filter (fun t => t.queuedAt l)

/-- The confirm list of a lane, in belt-list order (R25). -/
def State.confirmList (s : State) (l : Lane) : List Ticket := s.tt.belt.filter (fun t => t.firedAt l)

/-- The pending set, oldest first (R23). -/
def State.pendingSet (s : State) : List Ticket := s.tt.belt.filter Ticket.isPending

/-- The tickets in end accounting, in belt-list order (section 9.2). -/
def State.endAccounting (s : State) : List Ticket := s.tt.belt.filter Ticket.inEnd

/-- The live count (R16). -/
def State.liveCount (s : State) : Nat := s.tt.belt.length

/-- The lowest-numbered free slot (R17). -/
def State.freeSlot? (s : State) : Option Slot :=
  (List.finRange 128).find? (fun i => !s.tt.belt.any (fun t => t.slot == i))

/-- The ticket immediately before the one in a slot, in a belt list (R22). -/
def beforeIn : List Ticket → Slot → Option Ticket
  | [], _ => none
  | [_], _ => none
  | a :: b :: rest, slot => if b.slot = slot then some a else beforeIn (b :: rest) slot

/-- The ticket immediately after the one in a slot, in a belt list (R22). -/
def afterIn : List Ticket → Slot → Option Ticket
  | [], _ => none
  | [_], _ => none
  | a :: b :: rest, slot => if a.slot = slot then some b else afterIn (b :: rest) slot

/-! ### Commitments (R83, R84, R104) -/

/-- A commitment is made at a lane. -/
def State.commit (s : State) (l : Lane) : State := s.modLane l (fun r => { r with committed := r.committed + 1 })

/-- A commitment is released at a lane. -/
def State.release (s : State) (l : Lane) : State := s.modLane l (fun r => { r with committed := r.committed - 1 })

/-- The commitment a ticket holds, if any, is released (R27). -/
def State.releaseOf (s : State) (t : Ticket) : State :=
  match t.commitment with
  | some l => s.release l
  | none => s

/-! ### Counters -/

/-- The row of Table 2-3's tallies: the outlet, or 8 when it is absent (R30). -/
def tallyRow : Option Outlet → Nat
  | some o => o.val
  | none => 8

/-- The column of an outcome (Table 2-3). -/
def TicketOutcome.column : TicketOutcome → Nat
  | .sorted => 0
  | .runOff => 1
  | .lost => 2
  | .missort => 3
  | .sortedUnseen => 4
  | .pulled => 5
  | .flushed => 6

/-- The index of a tally cell: rows of seven columns (R30, R35). -/
def tallyIndex (o : Option Outlet) (c : TicketOutcome) : Fin 63 := Fin.ofNat 63 (tallyRow o * 7 + c.column)

/-- One tally cell is incremented (R30). -/
def State.tally (s : State) (o : Option Outlet) (c : TicketOutcome) : State :=
  { s with tt := { s.tt with tallies := tableMod s.tt.tallies (tallyIndex o c) (satInc counterTop) } }

/-- The run-off reason counter of a reason, in the order of R31; UNREAD, UNKNOWN and SUSPENDED have none. -/
def Reason.runOffIndex : Reason → Option (Fin 7)
  | .overlength => some 0
  | .draining => some 1
  | .routed => some 2
  | .noLane => some 3
  | .crowded => some 4
  | .missed => some 5
  | .redirected => some 6
  | .unread => none
  | .unknown => none
  | .suspended => none

/-- A destination becomes 0 with this reason (R31). -/
def State.countRunOff (s : State) (r : Reason) : State :=
  match r.runOffIndex with
  | some i => { s with tt := { s.tt with runOffReasons := tableMod s.tt.runOffReasons i (satInc counterTop) } }
  | none => s

/-! ### Disarming (R118) -/

/-- The channel of a lane is disarmed without a fire: the deferred fire and the counts go with the armed ticket, whose
fire count becomes absent; a ticket that was ARMED becomes ROUTED (R118). The stroke end count stays. -/
def State.disarm (s : State) (l : Lane) : State :=
  match (s.channel l).armed with
  | none => s
  | some a =>
    (s.modChannel l (fun c => { c with armed := none })).modTicket a.slot (fun t =>
      { t with fireCount := none, state := if t.state = .armed then .routed else t.state })

/-- Whether a lane's channel has this ticket armed. -/
def State.armsSlot (s : State) (l : Lane) (slot : Slot) : Bool :=
  match (s.channel l).armed with
  | some a => a.slot == slot
  | none => false

/-- If the ticket is the armed ticket of its lane's channel, that channel is disarmed (R118). -/
def State.disarmOf (s : State) (t : Ticket) : State :=
  match t.laneDest with
  | some l => if s.armsSlot l t.slot then s.disarm l else s
  | none => s

/-- The ticket is ARMED with a deferred fire outstanding (R33, R122). -/
def State.deferredOutstanding (s : State) (t : Ticket) : Bool :=
  match t.laneDest with
  | some l =>
    match (s.channel l).armed with
    | some a => a.slot == t.slot && a.lateLimit.isSome
    | none => false
  | none => false

end Sys2Proof.Machine
end

