-- ==== Sys2Proof/Machine/Time.lean ====
section
/-! DEFINITION. The time base, the carrier, the drives' own course and their outputs: what the passing of time does
(section 1.3, chapter 8), and the drive-level operations that begin and end a stroke (R135, R137). -/

namespace Sys2Proof.Machine

/-! ### The carrier (R131, R134), in clocks of XTAL, sixteen to the µs -/

/-- The carrier period: 50 µs × 2^k (R131). -/
def carrierPeriod (select : Nat) : Nat := 800 * 2 ^ select

/-- The active portion of a period at a duty: duty × period / 64, taken down to a whole clock (R134). -/
def activePortion (duty select : Nat) : Nat := duty * carrierPeriod select / 64

/-- The carrier after `n` clocks, and whether a period has started meanwhile. A pending select comes into force at the
first period start (R131). Periods are counted in clocks from the release of RESET_N, so a release between two ticks
keeps every period start off the ticks (DESIGN CHOICE, log 29). -/
def Carrier.advance (c : Carrier) (n : Nat) : Carrier × Bool :=
  if c.phase + n < carrierPeriod c.select then ({ c with phase := c.phase + n }, false)
  else
    let next := c.pending.getD c.select
    ({ select := next, pending := none, phase := (c.phase + n - carrierPeriod c.select) % carrierPeriod next }, true)

/-! ### Outputs (R133, R134, R142) -/

/-- Whether a lane's output is active (Table 8-2, R134). -/
def State.outputActive (s : State) (l : Lane) : Bool :=
  match (s.drive l).state with
  | .idle => false
  | .pull => true
  | .hold => decide (s.carrier.phase < activePortion (s.drive l).duty s.carrier.select)
  | .recover => false

/-- The level of a lane's drive pin: the polarity is read from the lane record at every moment (R133); the pin is held
low through a power-on or pin reset (R142). -/
def State.drvLevel (s : State) (l : Lane) : Bool :=
  match s.inReset with
  | some _ => false
  | none =>
    match (s.lane l).polarity with
    | .activeHigh => s.outputActive l
    | .activeLow => !s.outputActive l

/-! ### Lines (R49, R168, Table 11-1) -/

/-- The bit time of the reader line in µs (section 3.5). -/
def readerBitTime : Nat := 26

/-- The time of one reader character: twelve bit times (R49). -/
def readerCharTime : Nat := 12 * readerBitTime

/-- The bit time of the supervisory line in µs, by the baud straps (Table 11-1). -/
def lineBitTime (baud : BitVec 2) : Nat :=
  match baud.toNat with
  | 0 => 104
  | 1 => 52
  | 2 => 17
  | _ => 9

/-- The time of one supervisory character: twelve bit times (R168). -/
def State.lineCharTime (s : State) : Nat := 12 * lineBitTime s.sli.baud

/-- The reader line's gap limit, 2 ms (R51). -/
def readerGapLimit : Nat := 2000

/-- The frame gap limit, 10 ms, which the gap timer has to pass (R171). -/
def frameGapLimit : Nat := 10000

/-- The stop time in µs (R10). -/
def State.stopLimit (s : State) : Nat := s.geo.stopTime * 10000

/-! ### The passing of time -/

/-- A drive after `us` µs; `fresh` says that a carrier period has started, at which a drive in HOLD reads its lane's
duty again (R133, R134). -/
def Drive.elapse (d : Drive) (us : Nat) (fresh : Bool) (duty : Nat) : Drive :=
  match d.state with
  | .idle => d
  | .pull => { d with onTime := d.onTime + us, pullLeft := d.pullLeft - us }
  | .hold => { d with onTime := d.onTime + us, duty := if fresh then duty else d.duty }
  | .recover => { d with recoveryLeft := d.recoveryLeft - us }

/-- The Belt Count Unit's timers run in MOVING; the block timer saturates (section 1.3). -/
def BeltCountUnit.elapse (b : BeltCountUnit) (us : Nat) : BeltCountUnit :=
  match b.motion with
  | .stopped => b
  | .moving => { b with blockTimer := min (b.blockTimer + us) 65535, stopTimer := b.stopTimer + us }

/-- The reader line's timers: the gap timer runs while a report is under assembly (R51). -/
def ReaderLine.elapse (r : ReaderLine) (us : Nat) : ReaderLine :=
  { r with
    sendTimer := r.sendTimer.map (· + us)
    gapTimer := match r.assembly with
      | .waitHeader => r.gapTimer
      | .waitPattern _ => r.gapTimer + us
      | .waitForm _ _ => r.gapTimer + us
      | .waitStatus _ _ _ => r.gapTimer + us }

/-- The supervisory line's timers: the gap timer runs in SELECTED and COLLECTING (R171), the quiet count while a reply
is due (R172). -/
def SupervisoryLine.elapse (l : SupervisoryLine) (us : Nat) : SupervisoryLine :=
  { l with
    gapTimer := match l.frame with
      | .selected => l.gapTimer + us
      | .collecting _ _ => l.gapTimer + us
      | .unselected => l.gapTimer
      | .ignoring => l.gapTimer
    quietTimer := if l.reply.isSome then l.quietTimer + us else l.quietTimer
    sendTimer := if l.sending.isSome then l.sendTimer + us else l.sendTimer }

/-- `n` clocks of XTAL pass. The time base divides them by 16 (section 1.3); through a power-on or pin reset it is all
that runs (R165, log 21). -/
def State.elapse (s : State) (n : Nat) : State :=
  match s.inReset with
  | some _ => { s with xtal := (s.xtal + n) % 16 }
  | none =>
    let us := (s.xtal + n) / 16
    let c := s.carrier.advance n
    let s := { s with
      xtal := (s.xtal + n) % 16
      carrier := c.1
      bcu := s.bcu.elapse us
      rli := s.rli.elapse us
      sli := s.sli.elapse us }
    s.forLanes (fun s l => s.modDrive l (fun d => d.elapse us c.2 (s.lane l).holdDuty))

/-! ### The course of a drive -/

/-- A lane's drive enters PULL (R135, R140). A pull time of 0 elapses at once, and the drive passes on to HOLD, which
reads the duty (R134, R136). The recovery timer, and in PULL the duty, hold 0 (DESIGN CHOICE, log 33). -/
def State.startStroke (s : State) (l : Lane) (kind : StrokeKind) : State :=
  let r := s.lane l
  s.modDrive l (fun _ =>
    { state := if r.pullTime = 0 then .hold else .pull
      onTime := 0
      pullLeft := r.pullTime
      recoveryLeft := 0
      endHeld := false
      kind := kind
      maxOn := r.maxOnTime
      duty := if r.pullTime = 0 then r.holdDuty else 0 })

/-- A lane's drive enters RECOVER with the recovery time read now; a recovery time of 0 elapses at once and leaves the
drive IDLE (R137). The on-time timer and the pull timer stop, and the cap and the duty are kept no longer: the value each
then holds is not given, and the model holds 0 in it (DESIGN CHOICE, log 33). -/
def State.driveRecover (s : State) (l : Lane) : State :=
  let r := s.lane l
  s.modDrive l (fun d =>
    if r.recoveryTime = 0 then Drive.reset
    else
      { state := .recover
        onTime := 0
        pullLeft := 0
        recoveryLeft := r.recoveryTime
        endHeld := false
        kind := d.kind
        maxOn := 0
        duty := 0 })

/-- A drive in PULL or HOLD. -/
def Drive.driven (d : Drive) : Bool := d.state == .pull || d.state == .hold

/-- A drive running a test stroke in PULL or HOLD (R140). -/
def Drive.inTest (d : Drive) : Bool :=
  d.driven && (match d.kind with
    | .test _ => true
    | .fire => false
    | .none => false)

/-- Test strokes in PULL or HOLD are ended and their drives enter RECOVER (R141). -/
def State.endTestStrokes (s : State) : State :=
  s.forLanes (fun s l => if (s.drive l).inTest then s.driveRecover l else s)

/-- The entry into SETUP from DRAIN or HOLD: the mode changes and every fire stroke in PULL or HOLD ends, its stroke
end count no longer watched (R163). -/
def State.enterSetup (s : State) : State :=
  (s.setMode .setup).forLanes (fun s l =>
    if (s.drive l).driven && !(s.drive l).inTest then
      (s.modChannel l (fun c => { c with strokeEnd := none })).driveRecover l
    else s)

end Sys2Proof.Machine
end

