-- ==== Sys2Proof/Machine/Tickets.lean ====
section
/-! DEFINITION. Retirement, end accounting and flushing: the operations that end a ticket or send it to the belt end
(sections 2.5, 2.6, 9.2). -/

namespace Sys2Proof.Machine

/-! ### Retirement (R28 to R30) -/

/-- The steps of R28 but for the arming of the next head, which the Divert Timer does at the end of the event: the
ticket's channel is disarmed and its commitment released, its outcome is tallied, its record leaves the belt list, and
the Induction Unit no longer holds it under the eye (R29), its blocked length then 0 (DESIGN CHOICE, log 33). -/
def State.remove (s : State) (t : Ticket) (o : TicketOutcome) : State :=
  let s := ((s.disarmOf t).releaseOf t).tally t.outlet o
  { s with
    tt := { s.tt with belt := s.tt.belt.filter (fun u => u.slot ≠ t.slot) }
    ind := if s.ind.underEye = some t.slot then { s.ind with underEye := none, blockedLength := 0 } else s.ind }

/-- In DRAIN, an empty belt list makes the mode SETUP (R158). -/
def State.drainCheck (s : State) : State :=
  if s.mode = .drain ∧ s.tt.belt = [] then s.enterSetup else s

/-- The live ticket in a slot is retired, and a drain it completes ends in SETUP (R28, R158). -/
def State.retire (s : State) (slot : Slot) (o : TicketOutcome) : State :=
  match s.ticketAt? slot with
  | none => s
  | some t => (s.remove t o).drainCheck

/-- Every live ticket is retired FLUSHED in belt-list order; no head is armed (R32). -/
def State.flush (s : State) : State := s.tt.belt.foldl (fun s t => s.remove t .flushed) s

/-! ### End accounting (R144 to R146) -/

/-- The bounds of a ticket's end window (R11, R144). -/
def State.endWindow (s : State) (t : Ticket) : Count × Count :=
  let expected := t.induction + toCount s.geo.endDistance
  (expected - toCount s.geo.endTolerance, expected + toCount s.geo.endTolerance)

/-- An end window contains a count when both signed differences are 0 or more (R146). -/
def windowContains (w : Count × Count) (e : Count) : Bool :=
  decide (0 ≤ signedDiff w.1 e) && decide (0 ≤ signedDiff e w.2)

/-- The End Monitor stores the bounds of a ticket that enters end accounting (R144). -/
def State.storeBounds (s : State) (slot : Slot) : State :=
  s.modTicket slot (fun t => { t with endBounds := some (s.endWindow t) })

/-- Whether the upper bound the End Monitor holds for the ticket in a slot is reached. -/
def State.endReached (s : State) (slot : Slot) : Bool :=
  match s.ticketAt? slot with
  | some t => t.inEnd && (match t.endBounds with
    | some w => isReached s.now w.2
    | none => false)
  | none => false

/-- A RUNNING_OFF ticket enters end accounting; a window already past expires at once and the ticket is retired LOST
(R144, R149). -/
def State.enterRunningOff (s : State) (slot : Slot) : State :=
  let s := s.storeBounds slot
  if s.endReached slot then s.retire slot .lost else s

/-- A ticket's destination becomes 0 with a reason: it becomes RUNNING_OFF, loses its nominal point, stroke span and
joined mark, is counted under its reason, and enters end accounting (R21, R31, R82, R87, R144). -/
def State.sendToRunOff (s : State) (slot : Slot) (r : Reason) : State :=
  ((s.modTicket slot (fun t => { t with
    state := .runningOff
    dest := some .runOff
    reason := some r
    joined := false
    nominal := none
    span := none })).countRunOff r).enterRunningOff slot

end Sys2Proof.Machine
end

