-- ==== Sys2Proof/Machine/Divert.lean ====
section
/-! DEFINITION. The Divert Timer (chapter 7): lead, arming, fires, deferrals, misses and the ends of strokes, and the
end of recovery that the Drive Generator hands to it (R123, R137). -/

namespace Sys2Proof.Machine

/-- The lead for a latency at a P8 (R115). -/
def leadFor (latency p8 : Nat) : Nat := min ((16 * latency + p8) / (2 * p8)) 255

/-- The present lead of a lane (R79, R115). -/
def State.lead (s : State) (l : Lane) : Nat := leadFor (s.lane l).latency s.bcu.p8

/-- The armed ticket of a lane's channel: an ARMED live ticket destined to that lane (R114). -/
def State.armedTicket? (s : State) (l : Lane) : Option Ticket :=
  match (s.channel l).armed with
  | none => none
  | some a =>
    match s.ticketAt? a.slot with
    | none => none
    | some t => if t.state = .armed ∧ t.laneDest = some l then some t else none

/-- The Divert Timer arms a ticket at a lane, steps 1 to 4 (R117). -/
def State.arm (s : State) (l : Lane) (t : Ticket) : State :=
  let lead := s.lead l
  let planned := t.nominal.getD 0 - toCount lead
  (s.modChannel l (fun c => { c with armed := some { slot := t.slot, lead := lead, planned := planned, lateLimit := none } })).modTicket
    t.slot (fun t => { t with state := .armed, fireCount := some planned })

/-- Steps 1 and 2 of R120: the fire of a ticket is taken at the present belt count, the ticket joins the confirm list
and the Lane Table stores its close count (R108). -/
def State.takeFire (s : State) (l : Lane) (t : Ticket) : State :=
  (s.modChannel l (fun c => { c with armed := none })).modTicket t.slot (fun t => { t with
    state := .stroking
    fireCount := some s.now
    closeCount := some (s.now + toCount (s.lane l).confirmSpan) })

/-- The end count of a ticket whose fire is taken now (R120). -/
def State.endCount (s : State) (t : Ticket) : Count := s.now + toCount (t.span.getD 0)

/-- A fire that finds the drive IDLE begins a stroke (R120, R135). -/
def State.beginStroke (s : State) (l : Lane) (t : Ticket) : State :=
  ((s.takeFire l t).modChannel l (fun c => { c with strokeEnd := some (s.endCount t) })).startStroke l .fire

/-- A fire that finds the drive in PULL or HOLD extends the stroke; an end held by the drive is withdrawn (R121). -/
def State.extendStroke (s : State) (l : Lane) (t : Ticket) : State :=
  match (s.channel l).strokeEnd with
  | some e => (s.takeFire l t).modChannel l (fun c => { c with strokeEnd := some (laterCount e (s.endCount t)) })
  | none =>
    ((s.takeFire l t).modChannel l (fun c => { c with strokeEnd := some (s.endCount t) })).modDrive l
      (fun d => { d with endHeld := false })

/-- The late allowance of a ticket's class as the class record stands now (R63). -/
def State.lateAllowance (s : State) (t : Ticket) : Nat :=
  match t.cls with
  | some c => (s.classRecord c).lateAllowance
  | none => 0

/-- A fire that finds the drive in RECOVER is deferred (R122). -/
def State.deferFire (s : State) (l : Lane) (t : Ticket) : State :=
  (s.modTicket t.slot (fun t => { t with marks := { t.marks with deferred := true } })).modChannel l (fun c =>
    { c with armed := c.armed.map (fun a =>
      { a with lateLimit := some (t.nominal.getD 0 + toCount (s.lateAllowance t)) }) })

/-- A fire is missed (R124), but for the arming of the next head. -/
def State.missFire (s : State) (l : Lane) (t : Ticket) : State :=
  ((s.modChannel l (fun c => { c with armed := none })).releaseOf t).sendToRunOff t.slot .missed

/-- What a due fire does, by the mode and the drive state (R119). A late fire is marked LATE first. -/
def State.fire (s : State) (l : Lane) (late : Bool) : State :=
  match s.armedTicket? l with
  | none => s
  | some t =>
    let s := if late then s.modTicket t.slot (fun t => { t with marks := { t.marks with late := true } }) else s
    match s.mode with
    | .setup => s
    | .hold _ => s.missFire l t
    | .run =>
      match (s.drive l).state with
      | .idle => s.beginStroke l t
      | .pull => s.extendStroke l t
      | .hold => s.extendStroke l t
      | .recover => s.deferFire l t
    | .drain =>
      match (s.drive l).state with
      | .idle => s.beginStroke l t
      | .pull => s.extendStroke l t
      | .hold => s.extendStroke l t
      | .recover => s.deferFire l t

/-- The Divert Timer attends to the head of a lane's route queue (R24, R117): a displaced armed ticket is disarmed, a
head that is not armed is armed, and a planned fire count already reached is fired late at once, after which the next
head is attended to. Each round disarms, fires or ends, so a round per ticket and two more suffice. -/
def State.attend : Nat → State → Lane → State
  | 0, s, _ => s
  | k + 1, s, l =>
    match s.routeQueue l with
    | [] => s
    | t :: _ =>
      match (s.channel l).armed with
      | some a => if a.slot = t.slot then s else (s.disarm l).attend k l
      | none =>
        if isReached s.now (t.nominal.getD 0 - toCount (s.lead l)) then ((s.arm l t).fire l true).attend k l
        else s.arm l t

/-- The head of one lane's route queue is attended to. -/
def State.attendLane (s : State) (l : Lane) : State := s.attend (s.tt.belt.length + 2) l

/-- The heads of all route queues are attended to, as at step 5 of R76. -/
def State.attendAll (s : State) : State := s.forLanes State.attendLane

/-- The armed channel's planned fire count is reached and no deferred fire is outstanding (R114, R119). -/
def State.fireIsDue (s : State) (l : Lane) : Bool :=
  match (s.channel l).armed with
  | some a => a.lateLimit.isNone && isReached s.now a.planned
  | none => false

/-- A fire that falls due is taken and the next head attended to (R119, R120, R121, R124). -/
def State.takeDueFire (s : State) (l : Lane) : State := (s.fire l false).attendLane l

/-- The lead of an armed channel without a deferred fire is recomputed; a planned fire count found reached is fired
late at once (R116). -/
def State.recomputeLane (s : State) (l : Lane) : State :=
  match (s.channel l).armed with
  | none => s
  | some a =>
    match a.lateLimit, s.ticketAt? a.slot with
    | none, some t =>
      let lead := s.lead l
      let planned := t.nominal.getD 0 - toCount lead
      let s := (s.modChannel l (fun c => { c with armed := some { a with lead := lead, planned := planned } })).modTicket
        a.slot (fun t => { t with fireCount := some planned })
      if isReached s.now planned then (s.fire l true).attendLane l else s
    | none, none => s
    | some _, some _ => s
    | some _, none => s

/-- A P8 capture is handed to the Divert Timer (R7, R8, R116). -/
def State.recomputeLeads (s : State) : State := s.forLanes State.recomputeLane

/-! ### Deferred fires and the end of recovery (R123) -/

/-- The deferred fire of a channel, if outstanding, is judged by the mode and the late limit (R123). -/
def State.judgeDeferred (s : State) (l : Lane) : State :=
  match (s.channel l).armed, s.armedTicket? l with
  | some a, some t =>
    match a.lateLimit with
    | none => s
    | some limit =>
      match s.mode with
      | .setup => s
      | .hold _ => (s.missFire l t).attendLane l
      | .run => if isReached s.now limit then (s.missFire l t).attendLane l else (s.beginStroke l t).attendLane l
      | .drain => if isReached s.now limit then (s.missFire l t).attendLane l else (s.beginStroke l t).attendLane l
  | some _, none => s
  | none, some _ => s
  | none, none => s

/-- A drive enters RECOVER (R137). With a recovery time of 0 it is IDLE at once, and the end of recovery is handed to
the Divert Timer within the event. -/
def State.recoverLane (s : State) (l : Lane) : State :=
  let s := s.driveRecover l
  if (s.drive l).state = .idle then s.judgeDeferred l else s

/-- The recovery time has elapsed: the drive is IDLE and any deferred fire is judged (R137, R123). Its stopped
timers hold 0 (DESIGN CHOICE, log 33). -/
def State.endRecovery (s : State) (l : Lane) : State := (s.modDrive l (fun _ => Drive.reset)).judgeDeferred l

/-! ### Ends of strokes (R125, R126, R138, R139) -/

/-- The STROKING tickets of a lane's confirm list become CONFIRMING, with a mark added (R125, R138, R139). -/
def State.endStroking (s : State) (l : Lane) (mark : Marks → Marks) : State :=
  { s with tt := { s.tt with belt := s.tt.belt.map (fun t =>
    if t.state = .stroking ∧ t.laneDest = some l then { t with state := .confirming, marks := mark t.marks } else t) } }

/-- The channel is no longer open (R125, R126). -/
def State.closeChannel (s : State) (l : Lane) : State := s.modChannel l (fun c => { c with strokeEnd := none })

/-- The stroke end count is reached: tickets become CONFIRMING; a drive in HOLD recovers, one in PULL holds the end
(R125, R136). -/
def State.strokeEnds (s : State) (l : Lane) : State :=
  let s := (s.closeChannel l).endStroking l id
  match (s.drive l).state with
  | .hold => s.recoverLane l
  | .pull => s.modDrive l (fun d => { d with endHeld := true })
  | .idle => s
  | .recover => s

/-- The stroke end count of an open channel is reached (R114). -/
def State.strokeEndIsDue (s : State) (l : Lane) : Bool :=
  match (s.channel l).strokeEnd with
  | some e => isReached s.now e
  | none => false

/-- The on-time cap ends a stroke (R138, R126); a test stroke has no tickets and no channel (R140). -/
def State.capStroke (s : State) (l : Lane) : State :=
  match (s.drive l).kind with
  | .fire => ((s.endStroking l (fun m => { m with capped := true })).closeChannel l).recoverLane l
  | .test _ => s.recoverLane l
  | .none => s.recoverLane l

/-- The abort of a lane's stroke at the entry into HOLD (R139). -/
def State.abortLane (s : State) (l : Lane) : State :=
  if (s.drive l).driven then
    ((s.endStroking l (fun m => { m with aborted := true })).closeChannel l).recoverLane l
  else s

end Sys2Proof.Machine
end

