-- ==== Sys2Proof/Machine/Resolve.lean ====
section
/-! DEFINITION. The Route Resolver (chapter 5) with the catalogue's answer (R60, R61, R64, R67, R68): start cases,
eligibility, the walk, the crowding rule, resolution and the re-resolution pass; and the changes of lane state that
run the pass (R98, R103, R110, R111). -/

namespace Sys2Proof.Machine

/-! ### The catalogue's answer (R59 to R68, R77) -/

/-- Why a resolution is requested (R56). -/
inductive Cause where
  | trailingEdge | report | windowExpiry | tagReuse
  deriving DecidableEq, Repr

/-- Whether the read at resolution is a good read by its cause (R56, R57). -/
def Cause.goodRead : Cause → Bool
  | .trailingEdge => true
  | .report => true
  | .windowExpiry => false
  | .tagReuse => false

/-- The owner outlet of an ACTIVE or SUSPENDED entry (R59). -/
def PatternEntry.owner? : PatternEntry → Option Outlet
  | .unused => none
  | .active o => some o
  | .suspended o => some o

/-- A pattern lookup (R60). -/
def State.patternOf (s : State) (pattern : Byte) : PatternEntry := s.cat.patterns.get pattern.toFin

/-- A form lookup: forms 64 to 255 have no entry and are UNKNOWN (R61). -/
def State.formClass (s : State) (form : Byte) : Option WareClass :=
  if h : form.toNat < 64 then s.cat.forms.get ⟨form.toNat, h⟩ else none

/-- The index of a route grid cell: outlet × 8 + class (R64). -/
def routeIndex (o : Outlet) (c : WareClass) : Fin 64 := Fin.ofNat 64 (o.val * 8 + c.val)

/-- A route lookup (R64). -/
def State.routeOf (s : State) (o : Outlet) (c : WareClass) : Dest := s.cat.routes.get (routeIndex o c)

/-- The usable read of a ticket at a resolution: its ware code, when the cause is a good read and the quality is at
least the threshold in force now (R67). -/
def State.usableRead (s : State) (t : Ticket) (cause : Cause) : Option (Byte × Byte) :=
  match t.ware, t.quality with
  | some w, some q => if cause.goodRead = true ∧ s.cat.threshold ≤ q.toNat then some w else none
  | some _, none => none
  | none, some _ => none
  | none, none => none

/-- What a start case gives: the outlet, the class, where the walk starts, and the start reason (Table 5-1). Cases 1
and 2 are starts at 0, which end at once with the start reason and hops 0. -/
structure Start where
  outlet : Option Outlet
  cls : WareClass
  lane : Dest
  reason : Reason
  deriving DecidableEq, Repr

/-- The catalogue's answer for a ticket with a usable read (Table 4-3, lines 2 to 5; cases 4 to 7 of Table 5-1). -/
def State.catalogueAnswer (s : State) (pattern form : Byte) : Start :=
  match s.patternOf pattern with
  | .unused => ⟨none, s.cat.defaultClass, s.cat.residueLane, .unknown⟩
  | .suspended o => ⟨some o, (s.formClass form).getD s.cat.defaultClass, s.cat.residueLane, .suspended⟩
  | .active o =>
    match s.formClass form with
    | none => ⟨some o, s.cat.defaultClass, s.cat.residueLane, .unknown⟩
    | some c => ⟨some o, c, s.routeOf o c, .routed⟩

/-- The start case of a resolution (R77). -/
def State.startCase (s : State) (t : Ticket) (cause : Cause) : Start :=
  if t.overlength then
    ⟨(s.usableRead t cause).bind (fun w => (s.patternOf w.1).owner?), s.cat.defaultClass, .runOff, .overlength⟩
  else if s.mode = .drain then ⟨none, s.cat.defaultClass, .runOff, .draining⟩
  else
    match s.usableRead t cause with
    | none => ⟨none, s.cat.defaultClass, s.cat.residueLane, .unread⟩
    | some w => s.catalogueAnswer w.1 w.2

/-! ### Eligibility and the walk (R78 to R80, R92) -/

/-- The nominal point of a ticket of a class at a lane (R79). -/
def State.nominalAt (s : State) (t : Ticket) (c : WareClass) (l : Lane) : Count :=
  t.induction + toCount (s.lane l).distance + (s.classRecord c).strikeOffset.signExtend 16

/-- A lane is reachable when the piece is more than the present lead and 8 counts before its nominal point (R79). -/
def State.reachable (s : State) (t : Ticket) (c : WareClass) (l : Lane) : Bool :=
  decide ((s.lead l : Int) + 8 < signedDiff s.now (s.nominalAt t c l))

/-- The four conditions of R78. -/
def State.eligible (s : State) (t : Ticket) (c : WareClass) (l : Lane) : Bool :=
  (s.lane l).distance != 0 && (s.lane l).state == .opened
    && decide ((s.lane l).fill + (s.lane l).committed < (s.lane l).capacity) && s.reachable t c l

/-- How a walk ends: the lane, or none with its reason, and the hop count (R80). -/
structure WalkEnd where
  lane : Option Lane
  hops : Nat
  reason : Reason
  deriving DecidableEq, Repr

/-- The walk examining lane `l` with `left` links still allowed, so with hop count 6 − left (R80, steps 2 to 4). -/
def State.walkLane (s : State) (t : Ticket) (c : WareClass) (reason : Reason) : Nat → Lane → WalkEnd
  | 0, l => if s.eligible t c l then ⟨some l, 6, reason⟩ else ⟨none, 6, .noLane⟩
  | left + 1, l =>
    if s.eligible t c l then ⟨some l, 6 - (left + 1), reason⟩
    else
      match (s.lane l).overflow with
      | .runOff => ⟨none, 6 - (left + 1), .noLane⟩
      | .lane m => s.walkLane t c reason left m

/-- The walk of a resolution (R80). -/
def State.walk (s : State) (t : Ticket) (c : WareClass) (start : Dest) (reason : Reason) : WalkEnd :=
  match start with
  | .runOff => ⟨none, 0, reason⟩
  | .lane l => s.walkLane t c reason 6 l

/-- The walk of a re-resolution, which starts with lane `l` found ineligible and the ticket's hop count (R92). -/
def State.rewalk (s : State) (t : Ticket) (c : WareClass) (l : Lane) (reason : Reason) : WalkEnd :=
  match 6 - t.hops with
  | 0 => ⟨none, t.hops, .noLane⟩
  | left + 1 =>
    match (s.lane l).overflow with
    | .runOff => ⟨none, t.hops, .noLane⟩
    | .lane m => s.walkLane t c reason left m

/-- The stroke span of a ticket: length + sweep, raised to min stroke and lowered to 1023 (R63, R81). -/
def strokeSpan (length : Nat) (r : ClassRecord) : Nat := min (max (length + r.sweep) r.minStroke) 1023

/-- The ticket is given lane `l`: the lane is committed and the fields of R81 are written, joined as no until the crowding
rule writes it; a ticket that was in end accounting leaves it (R81, R83, R145). For a REDIRECT after which no pair with
the ticket before it is checked, the no that stands is a DESIGN CHOICE (log 27). -/
def State.giveLane (s : State) (slot : Slot) (c : WareClass) (l : Lane) (reason : Reason) (hops : Nat) : State :=
  (s.commit l).modTicket slot (fun t => { t with
    state := .routed
    dest := some (.lane l)
    reason := some reason
    hops := hops
    joined := false
    nominal := some (s.nominalAt t c l)
    span := some (strokeSpan (t.length.getD 0) (s.classRecord c))
    endBounds := none })

/-- The end of a walk is written into the ticket (R81, R82). -/
def State.writeWalk (s : State) (slot : Slot) (c : WareClass) (w : WalkEnd) : State :=
  match w.lane with
  | some l => s.giveLane slot c l w.reason w.hops
  | none => (s.modTicket slot (fun t => { t with hops := w.hops })).sendToRunOff slot w.reason

/-! ### The crowding rule (R85 to R90) -/

/-- The gap from one ticket to the next; a negative result is taken as 0 (R86). -/
def gapBetween (x y : Ticket) : Nat := (signedDiff (x.induction + toCount (x.length.getD 0)) y.induction).toNat

/-- The guard gap of a ticket's class as the class record stands now (R63). -/
def State.guardGap (s : State) (t : Ticket) : Nat :=
  match t.cls with
  | some c => (s.classRecord c).guardGap
  | none => 0

/-- The pair is crowded (R86). -/
def State.crowded (s : State) (x y : Ticket) : Bool :=
  decide (gapBetween x y < s.guardGap x) && (x.laneDest.isSome || y.laneDest.isSome)

/-- The two tickets have the same lane destination (R87). -/
def sameLane (x y : Ticket) : Bool := x.laneDest.isSome && x.laneDest == y.laneDest

/-- A ticket that a split sends to run-off: it has a lane destination and is ROUTED or ARMED (R88). -/
def Ticket.splittable (t : Ticket) : Bool := t.laneDest.isSome && t.waiting

/-- The later ticket's joined mark is written while it is ROUTED or ARMED (R87). -/
def State.writeJoined (s : State) (slot : Slot) (joined : Bool) : State :=
  s.modTicket slot (fun t => if t.waiting then { t with joined := joined } else t)

/-- One ticket of a crowded pair is split, if it is one that a split changes (R88). -/
def State.split (s : State) (slot : Slot) : State :=
  match s.ticketAt? slot with
  | none => s
  | some t => if t.splittable then ((s.disarmOf t).releaseOf t).sendToRunOff slot .crowded else s

/-- A pair is passed over when a member is PENDING_READ, or waits for a later step of a re-resolution pass (R85, R93). -/
def passedOver (passing : List Slot) (t : Ticket) : Bool := t.isPending || passing.contains t.slot

/-- The crowding rule on one pair (R86 to R88); a pair with a missing member is passed over (R85). -/
def State.judgePair (s : State) (passing : List Slot) (x y : Slot) : State :=
  match s.ticketAt? x, s.ticketAt? y with
  | some tx, some ty =>
    if passedOver passing tx || passedOver passing ty then s
    else if s.crowded tx ty then
      if sameLane tx ty then s.writeJoined y true else ((s.writeJoined y false).split x).split y
    else s.writeJoined y false
  | some _, none => s
  | none, some _ => s
  | none, none => s

/-- The crowding rule on a ticket and its neighbours at the moment of application (R85). -/
def State.crowd (s : State) (slot : Slot) (passing : List Slot) : State :=
  let before := beforeIn s.tt.belt slot
  let after := afterIn s.tt.belt slot
  let s := match before with
    | some a => s.judgePair passing a.slot slot
    | none => s
  match after with
  | some b => s.judgePair passing slot b.slot
  | none => s

/-- The rule would split the pair (R88, R90). -/
def State.wouldSplit (s : State) (x y : Ticket) : Bool :=
  !x.isPending && !y.isPending && s.crowded x y && !sameLane x y && (x.splittable || y.splittable)

/-! ### Resolution (R56, R57, R76) -/

/-- The no-read streak at a resolution (R57). -/
def State.streak (s : State) (cause : Cause) : State :=
  if cause.goodRead then { s with ind := { s.ind with noReadStreak := 0 } }
  else
    let n := satInc 255 s.ind.noReadStreak
    let s := { s with ind := { s.ind with noReadStreak := n } }
    if 16 ≤ n then s.raise .noRead else s

/-- A resolution is requested for a ticket of the pending set and taken as one event (R56, R57, R76). -/
def State.resolve (s : State) (slot : Slot) (cause : Cause) : State :=
  match s.ticketAt? slot with
  | none => s
  | some t =>
    if t.isPending then
      let s := s.streak cause
      let c := s.startCase t cause
      let s := s.modTicket slot (fun t => { t with
        tag := none, windowEnd := none, outlet := c.outlet, cls := some c.cls })
      ((s.writeWalk slot c.cls (s.walk t c.cls c.lane c.reason)).crowd slot []).attendAll
    else s

/-! ### Re-resolution (R91 to R93) -/

/-- One ticket's turn in the pass of lane `l`; `passing` holds the tickets whose turn is still to come (R91, R93). -/
def State.reresolve (s : State) (l : Lane) (slot : Slot) (passing : List Slot) : State :=
  match s.ticketAt? slot with
  | none => s
  | some t =>
    if t.queuedAt l then
      let s := (s.disarmOf t).releaseOf t
      let c := t.cls.getD 0
      (s.writeWalk slot c (s.rewalk t c l (t.reason.getD .routed))).crowd slot passing
    else s

/-- The turns of a pass, oldest first (R91). -/
def State.passOver (s : State) (l : Lane) : List Slot → State
  | [] => s
  | slot :: rest => (s.reresolve l slot rest).passOver l rest

/-- The re-resolution pass of a lane that has left OPEN; the heads are armed when it has ended (R91). -/
def State.reresolutionPass (s : State) (l : Lane) : State :=
  (s.passOver l ((s.routeQueue l).map Ticket.slot)).attendAll

/-! ### Lane states, fill and failures (R98, R103, R110, R111) -/

/-- A lane changes state: entering FULL or FAULTED sets its flag, leaving OPEN runs the pass (R98). -/
def State.changeLaneState (s : State) (l : Lane) (new : LaneState) : State :=
  let old := (s.lane l).state
  let s := s.modLane l (fun r => { r with state := new })
  let s := match new with
    | .full => if old = .full then s else s.raise .laneFull
    | .faulted => if old = .faulted then s else s.raise .laneFault
    | .opened => s
    | .closed => s
  if old = .opened ∧ new ≠ .opened then s.reresolutionPass l else s

/-- A lane's fill is incremented; an OPEN lane whose fill reaches its capacity becomes FULL (R103). -/
def State.addFill (s : State) (l : Lane) : State :=
  let s := s.modLane l (fun r => { r with fill := satInc 999 r.fill })
  if (s.lane l).state = .opened ∧ (s.lane l).capacity ≤ (s.lane l).fill then s.changeLaneState l .full else s

/-- A failed divert is counted; an OPEN or FULL lane whose failures reach the fault limit becomes FAULTED (R110,
R111). -/
def State.countFailure (s : State) (l : Lane) : State :=
  let s := s.modLane l (fun r => { r with failures := satInc 15 r.failures })
  if ((s.lane l).state = .opened ∨ (s.lane l).state = .full) ∧ s.geo.faultLimit ≤ (s.lane l).failures then
    s.changeLaneState l .faulted
  else s

/-- The end window of the ticket in a slot expires unseen: LOST, or SORTED_UNSEEN with the fill presumption (R149,
R150). -/
def State.expireEnd (s : State) (slot : Slot) : State :=
  match s.ticketAt? slot with
  | none => s
  | some t =>
    match t.state, t.laneDest with
    | .doubt, some l => (s.retire slot .sortedUnseen).addFill l
    | .doubt, none => s.retire slot .sortedUnseen
    | .runningOff, _ => s.retire slot .lost
    | .pendingRead, _ => s
    | .routed, _ => s
    | .armed, _ => s
    | .stroking, _ => s
    | .confirming, _ => s

/-- The confirm window of a fired ticket closes unseen (R109): it becomes DOUBT, its commitment is released, a ticket
that is not joined counts a failure, and it enters end accounting, where a window already past expires at once
(R144). -/
def State.closeConfirm (s : State) (slot : Slot) : State :=
  match s.ticketAt? slot with
  | none => s
  | some t =>
    match t.commitment with
    | none => s
    | some l =>
      let s := (s.releaseOf t).modTicket slot (fun t => { t with state := .doubt, closeCount := none })
      let s := if t.joined then s else s.countFailure l
      let s := s.storeBounds slot
      if s.endReached slot then s.expireEnd slot else s

end Sys2Proof.Machine
end

