-- ==== Sys2Proof/Machine/Resets.lean ====
section
/-! DEFINITION. The three kinds of reset (R165 to R167), and the form that every event's meaning has: through a
power-on or pin reset no input, edge or character is taken (R165). -/

namespace Sys2Proof.Machine

/-- What a command answers. -/
abbrev Out := Host.Outcome State Fault Refusal

/-- An event of a running part: it is not taken while a power-on or pin reset is in progress (R165). -/
def State.event (s : State) (f : State → State) : Out :=
  match s.inReset with
  | some _ => .next s
  | none => .next (f s)

/-- Every block is in the state its chapter gives for power-on and pin reset, and the reset is in progress (R165). The
cause, the guard, the eyes and the straps are recorded and sampled at the release alone; until then they hold
State.reset's values, the cause POWER in a pin reset too (DESIGN CHOICE, log 32). The queue and the counter of free
values are the model's own. -/
def State.held (s : State) (cause : ResetCause) (xtal : Nat) : State :=
  { State.reset with inReset := some cause, xtal := xtal, choices := s.choices, pending := s.pending }

/-- Power is applied; the time base starts (R165, section 1.3). -/
def execPowerOnReset (s : State) : Out := .next (s.held .power 0)

/-- RESET_N goes low. A pin reset that begins while a reset is in progress is part of it (R165). The time base runs
through the reset (section 1.3). -/
def execPinReset (s : State) : Out :=
  match s.inReset with
  | some _ => .next s
  | none => .next (s.held .pin s.xtal)

/-- The release of RESET_N: the eyes, the guard and the straps are sampled, the carrier begins its first period and the
cause is recorded (R165, R41, R143, R155, R168, R131). The first period begins at the very clock of the release, be it
between two ticks of the time base (DESIGN CHOICE, log 29). With no reset in progress there is no release (log 4). -/
def execReleaseOfResetN (pins : Pins) (s : State) : Out :=
  match s.inReset with
  | none => .next s
  | some cause => .next { s with
      inReset := none
      ind := { s.ind with eye := pins.inductionEye }
      em := { s.em with eye := pins.endEye }
      mc := { s.mc with guard := pins.guard, cause := cause }
      sli := { s.sli with address := pins.address, baud := pins.baud }
      carrier := { s.carrier with phase := 0 } }

/-- The failures of every lane become 0 (R110, R113). -/
def State.clearFailures (s : State) : State := s.forLanes (fun s l => s.modLane l (fun r => { r with failures := 0 }))

/-- What a soft reset does, as one event (R166): the flush; drives and channels cleared (R142, R130); the reader line
(R58), a trigger being sent excepted (R48); the Induction Unit (R58); the Belt Count Unit (R9); the lanes' failures
(R113); the mode and the cause; the frame state, flags and mask (R169, R176). -/
def State.softReset (s : State) : State :=
  let s := s.flush.clearFailures
  { s with
    drives := Vector.replicate 12 .reset
    channels := Vector.replicate 12 .reset
    rli := { s.rli with
      fifo := if s.rli.sendTimer.isSome then s.rli.fifo.take 1 else []
      assembly := .waitHeader
      gapTimer := 0 }
    ind := { s.ind with underEye := none, blockedLength := 0, nextTag := 0, noReadStreak := 0 }
    bcu := { s.bcu with
      motion := .stopped, p8 := 65535, blockCount := 0, blockTimer := 0, stopTimer := 0, capture := none }
    mc := { s.mc with mode := .setup, cause := .soft }
    sli := { s.sli with
      frame := .unselected, broadcast := false, gapTimer := 0, reply := none, quietTimer := 0, sending := none,
      sendTimer := 0, flags := 0, mask := 0x3FF } }

end Sys2Proof.Machine
end

