-- ==== Sys2Proof/Machine/Drives.lean ====
section
/-! DEFINITION. The events of the Divert Timer and the Drive Generator (chapters 7 and 8): due fires and stroke ends,
and what the end of each drive timer does. -/

namespace Sys2Proof.Machine

/-- A channel's planned fire count is reached (R119); a count that is ahead, or a deferred fire, leaves the part as it
is (log 4). -/
def State.onFireDue (s : State) (l : Lane) : State := if s.fireIsDue l then s.takeDueFire l else s

/-- FIRE_DUE (R119). -/
def execFireDue (lane : Lane) (s : State) : Out := s.event (fun s => s.onFireDue lane)

/-- A channel's stroke end count is reached (R125). -/
def State.onStrokeEnd (s : State) (l : Lane) : State := if s.strokeEndIsDue l then s.strokeEnds l else s

/-- STROKE_END_COUNT_REACHED (R125). -/
def execStrokeEndCountReached (lane : Lane) (s : State) : Out := s.event (fun s => s.onStrokeEnd lane)

/-- The drive goes on from PULL: to RECOVER when the end is held, else to HOLD, which reads the duty (R134, R136). The pull
timer then holds 0 (DESIGN CHOICE, log 33). -/
def State.leavePull (s : State) (l : Lane) : State :=
  if (s.drive l).endHeld then s.recoverLane l
  else s.modDrive l (fun d => { d with state := .hold, pullLeft := 0, duty := (s.lane l).holdDuty })

/-- The on-time at which the cap ends a stroke, in µs (R138). -/
def Drive.capTime (d : Drive) : Nat := d.maxOn * 10000

/-- What a test end does: a drive in HOLD recovers, one in PULL holds the end (R141). -/
def State.takeTestEnd (s : State) (l : Lane) : State :=
  match (s.drive l).state with
  | .hold => s.recoverLane l
  | .pull => s.modDrive l (fun d => { d with endHeld := true })
  | .idle => s
  | .recover => s

/-- The test end of a test stroke that still has it to come (R133, R141). -/
def Drive.testEnd? (d : Drive) : Option Nat :=
  if d.driven = true ∧ d.endHeld = false then
    match d.kind with
    | .test e => some e
    | .fire => none
    | .none => none
  else none

end Sys2Proof.Machine
end

