-- ==== Sys2Proof/Machine/Eyes.lean ====
section
/-! DEFINITION. The lane eyes, the confirm windows and the end of the belt (sections 6.4, 6.5 and chapter 9). -/

namespace Sys2Proof.Machine

/-- A sighting at a lane (R105, R106): the first ticket of the confirm list is retired SORTED, the lane's failures
become 0 and its fill rises; with the list empty it is a lane stray. -/
def State.sightLane (s : State) (l : Lane) : State :=
  match s.confirmList l with
  | [] => (s.modLane l (fun r => { r with strays := satInc counterTop r.strays })).addFill l
  | t :: _ => ((s.retire t.slot .sorted).modLane l (fun r => { r with failures := 0 })).addFill l

/-- A leading edge on a lane eye; SETUP ignores it (R105). No level of a lane eye is kept, so every leading edge is a
sighting, with or without a trailing edge since the last (DESIGN CHOICE, log 28). -/
def State.laneEyeLeads (s : State) (l : Lane) : State :=
  match s.mode with
  | .setup => s
  | .run => s.sightLane l
  | .drain => s.sightLane l
  | .hold _ => s.sightLane l

/-- LANE_EYE_LEADING_EDGE (R105). -/
def execLaneEyeLeadingEdge (lane : Lane) (s : State) : Out := s.event (fun s => s.laneEyeLeads lane)

/-- LANE_EYE_TRAILING_EDGE: ignored in every mode (R105). -/
def execLaneEyeTrailingEdge (_lane : Lane) (s : State) : Out := .next s

/-- The close count of a fired ticket is reached (R108). -/
def Ticket.closeDue (now : Count) (t : Ticket) : Bool :=
  (t.state == .stroking || t.state == .confirming) && (match t.closeCount with
    | some c => isReached now c
    | none => false)

/-- The confirm window that closes next: of those whose counts are reached, the oldest ticket's (R109, log 19). -/
def State.nextClose? (s : State) : Option Ticket := s.tt.belt.find? (fun t => t.closeDue s.now)

/-- A confirm window closes unseen when its count is reached and no older one waits (R109). -/
def State.onConfirmClose (s : State) (slot : Slot) : State :=
  match s.nextClose? with
  | none => s
  | some t => if t.slot = slot then s.closeConfirm slot else s

/-- CONFIRM_WINDOW_CLOSE (R109). -/
def execConfirmWindowClose (slot : Slot) (s : State) : Out := s.event (fun s => s.onConfirmClose slot)

/-- The end window the End Monitor holds for a ticket in end accounting contains a count (R146). -/
def Ticket.endContains (e : Count) (t : Ticket) : Bool :=
  t.inEnd && (match t.endBounds with
    | some w => windowContains w e
    | none => false)

/-- An end sighting at the present count: the oldest ticket whose window contains it is retired RUN_OFF or MISSORT
(R147); else it is an end stray (R148). -/
def State.sightEnd (s : State) : State :=
  match s.tt.belt.find? (fun t => t.endContains s.now) with
  | some t => s.retire t.slot (if t.state = .doubt then .missort else .runOff)
  | none => { s with em := { s.em with strays := satInc counterTop s.em.strays } }.raise .endStray

/-- A change of EEYE from clear to blocked; in SETUP it changes the eye state only (R143). -/
def State.endEyeLeads (s : State) : State :=
  match s.em.eye with
  | .blocked => s
  | .clear =>
    let s := { s with em := { s.em with eye := .blocked } }
    match s.mode with
    | .setup => s
    | .run => s.sightEnd
    | .drain => s.sightEnd
    | .hold _ => s.sightEnd

/-- END_EYE_LEADING_EDGE (R143, R147). -/
def execEndEyeLeadingEdge (s : State) : Out := s.event State.endEyeLeads

/-- END_EYE_TRAILING_EDGE: the eye state alone changes (R143). -/
def execEndEyeTrailingEdge (s : State) : Out := s.event (fun s => { s with em := { s.em with eye := .clear } })

/-- The upper bound of an end window is reached (R149, R150). -/
def State.onEndWindow (s : State) (slot : Slot) : State := if s.endReached slot then s.expireEnd slot else s

/-- END_WINDOW_EXPIRY (R149). -/
def execEndWindowExpiry (slot : Slot) (s : State) : Out := s.event (fun s => s.onEndWindow slot)

end Sys2Proof.Machine
end

