-- ==== Sys2Proof/Machine/Induction.lean ====
section
/-! DEFINITION. The Induction Unit and the Reader Line Interface (chapter 3): eye edges, tags, lengths, triggers,
report assembly and matching, and read windows. -/

namespace Sys2Proof.Machine

/-! ### The reader line (R48 to R52) -/

/-- The reader-error counter is incremented and READER_ERR set (R52). -/
def State.readerError (s : State) : State :=
  { s with rli := { s.rli with errors := satInc counterTop s.rli.errors } }.raise .readerErr

/-- A tag is offered to the trigger FIFO, which holds up to 4 (R48). -/
def State.offerTrigger (s : State) (tag : Tag) : State :=
  if s.rli.fifo.length < 4 then { s with rli := { s.rli with fifo := s.rli.fifo ++ [tag] } } else s.readerError

/-- The character on RTX while a trigger is sent: marked 40h + tag (R48). -/
def triggerChar (tag : Tag) : LineChar := lineCharOf true (0x40 ||| tag.zeroExtend 8)

/-- The level of RTX: the bit of the trigger in transmission, or the idle level, taken as high (R49, log 22). -/
def State.rtxLevel (s : State) : Bool :=
  match s.rli.sendTimer, s.rli.fifo with
  | some t, tag :: _ => (triggerChar tag).levels.getD (t / readerBitTime) true
  | some _, [] => true
  | none, [] => true
  | none, _ :: _ => true

/-- The assembly state and its gap timer after a character or a timeout (R50, R51). In WAIT_HEADER the timer does not run
and holds 0 (DESIGN CHOICE, log 33). -/
def State.setAssembly (s : State) (a : Assembly) : State :=
  { s with rli := { s.rli with assembly := a, gapTimer := 0 } }

/-- The report under assembly is abandoned with a reader error (R50). -/
def State.abandonReport (s : State) : State := (s.setAssembly .waitHeader).readerError

/-- The oldest ticket of the pending set that holds a tag; at most one does (R23, R53). -/
def State.pendingWithTag? (s : State) (tag : Tag) : Option Ticket :=
  s.pendingSet.find? (fun t => t.tag == some tag)

/-- A complete report is matched and judged (R53, R54): the upper four bits of the status are the read status, the
lower four the quality (Table 3-1). -/
def State.report (s : State) (tag : Tag) (pattern form status : Byte) : State :=
  let quality : BitVec 4 := status.truncate 4
  let goodStatus := (status >>> 4) == 0
  match s.pendingWithTag? tag with
  | none => { s with rli := { s.rli with strays := satInc counterTop s.rli.strays } }
  | some t =>
    if t.readHeld then { s with rli := { s.rli with strays := satInc counterTop s.rli.strays } }
    else
      let s := s.modTicket t.slot (fun t => { t with
        quality := some quality
        ware := if goodStatus then some (pattern, form) else none })
      if goodStatus = true ∧ s.cat.threshold ≤ quality.toNat then
        if s.ind.underEye = some t.slot then s.modTicket t.slot (fun t => { t with readHeld := true })
        else s.resolve t.slot .report
      else s

/-- A marked character without error (Table 3-2). -/
def State.readerMarked (s : State) (v : Byte) : State :=
  let s := match s.rli.assembly with
    | .waitHeader => s
    | .waitPattern _ => s.abandonReport
    | .waitForm _ _ => s.abandonReport
    | .waitStatus _ _ _ => s.abandonReport
  if (v >>> 4) = 0x2 then s.setAssembly (.waitPattern (v.truncate 4)) else s

/-- A data character without error (Table 3-2). -/
def State.readerData (s : State) (v : Byte) : State :=
  match s.rli.assembly with
  | .waitHeader => s
  | .waitPattern tag => s.setAssembly (.waitForm tag v)
  | .waitForm tag pattern => s.setAssembly (.waitStatus tag pattern v)
  | .waitStatus tag pattern form => (s.setAssembly .waitHeader).report tag pattern form v

/-- A character received on RRX (R49, R50). -/
def State.readerReceives (s : State) (c : LineChar) : State :=
  if c.good then (if c.marked then s.readerMarked c.value else s.readerData c.value)
  else (s.setAssembly .waitHeader).readerError

/-- READER_CHARACTER (R50): the row stands for the whole character from its start bit (log 12). -/
def execReaderCharacter (c : LineChar) (s : State) : Out := s.event (fun s => s.readerReceives c)

/-- With the transmitter idle and the FIFO not empty, the trigger for the oldest tag begins (R48). -/
def State.beginTrigger (s : State) : State :=
  if s.rli.sendTimer = none ∧ s.rli.fifo ≠ [] then { s with rli := { s.rli with sendTimer := some 0 } } else s

/-- TRIGGER_SEND (R48). -/
def execTriggerSend (s : State) : Out := s.event State.beginTrigger

/-- The stop bit of the trigger has been sent: the transmitter is idle and the tag leaves the FIFO (R48). -/
def State.endTrigger (s : State) : State :=
  { s with rli := { s.rli with sendTimer := none, fifo := s.rli.fifo.tail } }

/-! ### The induction eye (R41 to R47) -/

/-- The ticket under the eye whose blocked length has reached 1023 without its mark (R46). -/
def State.overlengthDue (s : State) : Option Slot :=
  match s.ind.underEye with
  | none => none
  | some slot =>
    match s.ticketAt? slot with
    | none => none
    | some t => if 1023 ≤ s.ind.blockedLength ∧ t.overlength = false then some slot else none

/-- A ticket whose blocked length has reached 1023 is marked overlength and OVERLENGTH is set (R46). -/
def State.markOverlength (s : State) : State :=
  match s.overlengthDue with
  | none => s
  | some slot => (s.modTicket slot (fun t => { t with overlength := true })).raise .overlength

/-- OVERLENGTH (R46): the count event that brings the length to 1023 is the event, so in a run the mark is there before
the row (log 18). -/
def execOverlength (s : State) : Out := s.event State.markOverlength

/-- The ticket under the eye ends there with a length (R47): resolution is requested if its read is held, else its
read-window end count is stored, and a read window of 0 expires at once. The blocked length of no ticket is 0
(DESIGN CHOICE, log 33). -/
def State.endUnderEye (s : State) (length : Nat) : State :=
  match s.ind.underEye with
  | none => s
  | some slot =>
    let s := { s with ind := { s.ind with underEye := none, blockedLength := 0 } }.modTicket slot
      (fun t => { t with length := some length })
    match s.ticketAt? slot with
    | none => s
    | some t =>
      if t.readHeld then s.resolve slot .trailingEdge
      else
        let windowEnd := s.now + toCount s.geo.readWindow
        let s := s.modTicket slot (fun t => { t with windowEnd := some windowEnd })
        if isReached s.now windowEnd then s.resolve slot .windowExpiry else s

/-- A change of IEYE from blocked to clear (R41, R47). -/
def State.inductionTrails (s : State) : State :=
  match s.ind.eye with
  | .clear => s
  | .blocked =>
    let s := { s with ind := { s.ind with eye := .clear } }
    match s.mode with
    | .setup => s
    | .run => s.endUnderEye (max 1 s.ind.blockedLength)
    | .drain => s.endUnderEye (max 1 s.ind.blockedLength)
    | .hold _ => s.endUnderEye (max 1 s.ind.blockedLength)

/-- INDUCTION_TRAILING_EDGE (R47). -/
def execInductionTrailingEdge (s : State) : Out := s.event State.inductionTrails

/-- The hold limit of the ticket under the eye: its induction count + 30,000 (R46). -/
def holdLimit (t : Ticket) : Count := t.induction + toCount 30000

/-- The hold limit of the ticket under the eye is reached (R46). -/
def State.holdLimitDue (s : State) : Bool :=
  match s.ind.underEye with
  | none => false
  | some slot =>
    match s.ticketAt? slot with
    | none => false
    | some t => isReached s.now (holdLimit t)

/-- At its hold limit the ticket under the eye ends there with length 1023; the eye stays blocked (R46). -/
def State.reachHoldLimit (s : State) : State :=
  if s.holdLimitDue then s.endUnderEye 1023 else s

/-- HOLD_LIMIT_REACHED (R46). -/
def execHoldLimitReached (s : State) : Out := s.event State.reachHoldLimit

/-- The record of a new ticket (R17). -/
def newTicket (slot : Slot) (generation : Generation) (tag : Tag) (induction : Count) : Ticket where
  slot := slot
  generation := generation
  state := .pendingRead
  tag := some tag
  induction := induction
  length := none
  overlength := false
  readHeld := false
  ware := none
  quality := none
  outlet := none
  cls := none
  dest := none
  reason := none
  hops := 0
  joined := false
  nominal := none
  span := none
  fireCount := none
  marks := {}
  windowEnd := none
  closeCount := none
  endBounds := none

/-- The Ticket Table allocates a slot: the generation is incremented, the record joins the belt list at its tail, and
TABLE_HIGH is set at 112 or more live tickets (R16, R17). -/
def State.allocate (s : State) (slot : Slot) (tag : Tag) : State :=
  let generation := s.tt.generations.get slot + 1
  let s := { s with tt := { s.tt with
    generations := tableMod s.tt.generations slot (fun _ => generation)
    belt := s.tt.belt ++ [newTicket slot generation tag s.now] } }
  if 112 ≤ s.liveCount then s.raise .tableHigh else s

/-- A piece that finds no free slot (R18, R42 step 1). The blocked length of no ticket is 0 (DESIGN CHOICE, log 33). -/
def State.refusePiece (s : State) : State :=
  { s with
    tt := { s.tt with untracked := satInc counterTop s.tt.untracked }
    ind := { s.ind with underEye := none, blockedLength := 0 } }.raise .tableFull

/-- Steps 4 to 6 of R42: allocation, the ticket under the eye, and the trigger. -/
def State.openTicket (s : State) (slot : Slot) (tag : Tag) : State :=
  let s := s.allocate slot tag
  { s with ind := { s.ind with underEye := some slot, blockedLength := 0 } }.offerTrigger tag

/-- A leading edge in RUN, DRAIN or HOLD (R42 to R44). A drain that the tag reuse itself completes leaves the part in
SETUP, which opens no ticket (log 17). -/
def State.induct (s : State) : State :=
  match s.freeSlot? with
  | none => s.refusePiece
  | some _ =>
    let tag := s.ind.nextTag
    let s := { s with ind := { s.ind with nextTag := tag + 1 } }
    let s := match s.pendingWithTag? tag with
      | none => s
      | some t => s.resolve t.slot .tagReuse
    match s.mode, s.freeSlot? with
    | .setup, _ => s
    | _, none => s
    | _, some slot => s.openTicket slot tag

/-- A change of IEYE from clear to blocked (R41, R42). -/
def State.inductionLeads (s : State) : State :=
  match s.ind.eye with
  | .blocked => s
  | .clear =>
    let s := { s with ind := { s.ind with eye := .blocked } }
    match s.mode with
    | .setup => s
    | .run => s.induct
    | .drain => s.induct
    | .hold _ => s.induct

/-- INDUCTION_LEADING_EDGE (R42). -/
def execInductionLeadingEdge (s : State) : Out := s.event State.inductionLeads

/-! ### Read windows (R55) -/

/-- The read-window end count of a still-pending ticket is reached (R55). -/
def Ticket.windowDue (now : Count) (t : Ticket) : Bool :=
  t.isPending && (match t.windowEnd with
    | some e => isReached now e
    | none => false)

/-- A read window that has closed resolves its ticket unread (R55). -/
def State.expireReadWindow (s : State) (slot : Slot) : State :=
  match s.ticketAt? slot with
  | none => s
  | some t => if t.windowDue s.now then s.resolve slot .windowExpiry else s

/-- READ_WINDOW_EXPIRY (R55). -/
def execReadWindowExpiry (slot : Slot) (s : State) : Out := s.event (fun s => s.expireReadWindow slot)

end Sys2Proof.Machine
end

