-- ==== Sys2Proof/Machine/Belt.lean ====
section
/-! DEFINITION. The Belt Count Unit (chapter 1): encoder pulses, count events, P8 captures and stop detection, and the
reaches that one count event brings about in every block (R5). -/

namespace Sys2Proof.Machine

/-! ### What a count event leaves due (R5) -/

/-- An own event of the part that follows from a count event (R5). -/
inductive CountReach where
  | capture
  | holdLimit
  | readWindow (slot : Slot)
  | fire (lane : Lane)
  | strokeEnd (lane : Lane)
  | confirmClose (slot : Slot)
  | endWindow (slot : Slot)
  deriving DecidableEq, Repr

/-- The P8 capture (R7): P8 takes the block timer's value, 0 giving 1, and is handed to the Divert Timer. -/
def State.takeCapture (s : State) : State :=
  match s.bcu.capture with
  | none => s
  | some v => { s with bcu := { s.bcu with p8 := max 1 v, capture := none } }.recomputeLeads

/-- The reaches of the present belt count that have not been taken. Confirm windows close oldest first (R109). -/
def State.countDue (s : State) : List CountReach :=
  (if s.bcu.capture.isSome then [.capture] else [])
    ++ (if s.holdLimitDue then [.holdLimit] else [])
    ++ (s.tt.belt.filter (fun t => t.windowDue s.now)).map (fun t => .readWindow t.slot)
    ++ (allLanes.filter s.fireIsDue).map .fire
    ++ (allLanes.filter s.strokeEndIsDue).map .strokeEnd
    ++ s.nextClose?.toList.map (fun t => .confirmClose t.slot)
    ++ (s.tt.belt.filter (fun t => s.endReached t.slot)).map (fun t => .endWindow t.slot)

/-- One reach is taken. -/
def State.takeReach (s : State) : CountReach → State
  | .capture => s.takeCapture
  | .holdLimit => s.reachHoldLimit
  | .readWindow slot => s.expireReadWindow slot
  | .fire l => s.onFireDue l
  | .strokeEnd l => s.onStrokeEnd l
  | .confirmClose slot => s.onConfirmClose slot
  | .endWindow slot => s.onEndWindow slot

/-- One of several due events, in an order the manual leaves free (log 3). -/
def chosen {α : Type} (n : Nat) (first : α) (rest : List α) : α :=
  (first :: rest).getD (Config.orderChoice n % (rest.length + 1)) first

/-- The reaches still outstanding are taken, one after the other. -/
def State.settleCounts : Nat → State → State
  | 0, s => s
  | k + 1, s =>
    match s.countDue with
    | [] => s
    | [e] => (s.takeReach e).settleCounts k
    | e :: f :: rest =>
      ({ s with choices := s.choices + 1 }.takeReach (chosen s.choices e (f :: rest))).settleCounts k

/-- Every reach of the present count is taken before the next count event: each reached count is reached at its own
count event (R5). A ticket has at most three reaches and a lane two. -/
def State.settle (s : State) : State := s.settleCounts (3 * s.tt.belt.length + 32)

/-! ### Encoder pulses and count events (R1, R3, R6, R7, R45) -/

/-- A count event's effect on motion and speed measurement (R6, R7). At the eighth count event of a block the block
timer's value is handed to the P8 capture and the next block opens (log 11). -/
def BeltCountUnit.countEvent (b : BeltCountUnit) : BeltCountUnit :=
  let b := { b with count := b.count + 1 }
  match b.motion with
  | .stopped => { b with motion := .moving, blockCount := 0, blockTimer := 0, stopTimer := 0 }
  | .moving =>
    if b.blockCount + 1 < 8 then { b with blockCount := b.blockCount + 1, stopTimer := 0 }
    else { b with blockCount := 0, blockTimer := 0, stopTimer := 0, capture := some b.blockTimer }

/-- A count event at the Induction Unit: with a ticket under a blocked eye the blocked length advances (R45), and the
event that brings it to 1023 marks the ticket overlength and sets OVERLENGTH (R46, log 18). -/
def State.countBlocked (s : State) : State :=
  if s.ind.underEye.isSome ∧ s.ind.eye = .blocked then
    { s with ind := { s.ind with blockedLength := satInc 1023 s.ind.blockedLength } }.markOverlength
  else s

/-- A count event (R3, R5): the belt count, the motion and the blocked length of the ticket under the eye. -/
def State.countEvent (s : State) : State := { s with bcu := s.bcu.countEvent }.countBlocked

/-- The pulses per belt count of the present setting (Table 1-1). -/
def State.pulsesPerCount (s : State) : Nat := 2 ^ s.geo.prescaleExponent

/-- An encoder pulse at the prescaler (R1). -/
def State.pulse (s : State) : State :=
  if s.bcu.remainder + 1 < s.pulsesPerCount then
    { s with bcu := { s.bcu with remainder := s.bcu.remainder + 1 } }
  else { s with bcu := { s.bcu with remainder := 0 } }.countEvent

/-- ENCODER_PULSE (R1): reaches of the present count that are still outstanding are taken, then the pulse. -/
def execEncoderPulse (s : State) : Out := s.event (fun s => s.settle.pulse)

/-- P8_CAPTURE (R7). -/
def execP8Capture (s : State) : Out := s.event State.takeCapture

/-- The stop event (R8): STOPPED with P8 = 65535, the block discarded, BELT_STOPPED set, and the P8 handed to the
Divert Timer as a capture is. A capture that a count event has already made comes first (R7). The
stopped timers hold 0 (DESIGN CHOICE, log 33). -/
def State.stopBelt (s : State) : State :=
  let s := s.takeCapture
  ({ s with bcu := { s.bcu with
      motion := .stopped, p8 := 65535, blockCount := 0, blockTimer := 0, stopTimer := 0, capture := none } }.raise
    .beltStopped).recomputeLeads

end Sys2Proof.Machine
end

