-- ==== Sys2Proof/Machine/Operands.lean ====
section
/-! DEFINITION. Operand and reply forms: the codes of R178, the byte order of 16-bit values, lane numbers and handles
as parameters, and every record layout of section 11.7. -/

namespace Sys2Proof.Machine

/-! ### Characters and values (R178) -/

/-- A quantity as one character. -/
def byteOf (n : Nat) : Byte := BitVec.ofNat 8 n

/-- A 16-bit value as two data characters, low-order first (R178). -/
def wordChars (w : Word) : List Byte := [w.truncate 8, (w >>> 8).truncate 8]

/-- A quantity as a 16-bit value. -/
def natChars (n : Nat) : List Byte := wordChars (BitVec.ofNat 16 n)

/-- The 16-bit value of two data characters, low-order first (R178). -/
def wordOf (low high : Byte) : Word := (high.zeroExtend 16 <<< 8) ||| low.zeroExtend 16

/-- The character of an absent single-character value outside the ticket record (R178). -/
def absentChar : Byte := 0xFF

/-! ### Codes (R178, Table 11-2) -/

def Status.code : Status → Byte
  | .ok => 0x00
  | .clamped => 0x01
  | .unknownCommand => 0x80
  | .badLength => 0x81
  | .badParam => 0x82
  | .notInMode => 0x83
  | .stale => 0x84
  | .state => 0x85
  | .lane => 0x86
  | .crowded => 0x87
  | .geometry => 0x88
  | .busy => 0x89

def Mode.code : Mode → Byte
  | .setup => 0
  | .run => 1
  | .drain => 2
  | .hold _ => 3

/-- The mode held from, absent outside HOLD (R155, R178). -/
def Mode.heldCode : Mode → Byte
  | .hold .run => 1
  | .hold .drain => 2
  | .setup => absentChar
  | .run => absentChar
  | .drain => absentChar

def guardCode : Guard → Byte
  | .closed => 0
  | .opened => 1

def eyeCode : Eye → Byte
  | .clear => 0
  | .blocked => 1

def Motion.code : Motion → Byte
  | .stopped => 0
  | .moving => 1

def ResetCause.code : ResetCause → Byte
  | .power => 0
  | .pin => 1
  | .soft => 2

def TicketState.code : TicketState → Byte
  | .pendingRead => 0
  | .routed => 1
  | .armed => 2
  | .stroking => 3
  | .confirming => 4
  | .doubt => 5
  | .runningOff => 6

def Reason.code : Reason → Byte
  | .routed => 0
  | .unread => 1
  | .unknown => 2
  | .suspended => 3
  | .overlength => 4
  | .draining => 5
  | .noLane => 6
  | .crowded => 7
  | .missed => 8
  | .redirected => 9

def LaneState.code : LaneState → Byte
  | .closed => 0
  | .opened => 1
  | .full => 2
  | .faulted => 3

def Polarity.code : Polarity → Byte
  | .activeHigh => 0
  | .activeLow => 1

/-- A destination, link, route cell or residue lane as its lane number, run-off being 0. -/
def Dest.number : Dest → Nat
  | .runOff => 0
  | .lane l => l.val + 1

def Dest.code (d : Dest) : Byte := byteOf d.number

/-! ### Parameters -/

/-- A lane parameter 1 to 12 (R96). -/
def laneParam? (n : Nat) : Option Lane := if h : 1 ≤ n ∧ n ≤ 12 then some ⟨n - 1, by omega⟩ else none

/-- A lane parameter 0 to 12, where 0 is run-off (R37, R70, R97). -/
def destParam? (n : Nat) : Option Dest :=
  if n = 0 then some .runOff else (laneParam? n).map .lane

/-- A handle parameter in range: slot 0 to 127, generation 0 to 15 (R19). -/
def handleInRange (slot generation : Byte) : Bool := decide (slot.toNat ≤ 127) && decide (generation.toNat ≤ 15)

/-- The live ticket a handle names (R19). -/
def State.named? (s : State) (slot generation : Byte) : Option Ticket :=
  s.tt.belt.find? (fun t => t.slot.val == slot.toNat && t.generation.toNat == generation.toNat)

/-- A numeric value clamped to its range (00_scope.md section 7). -/
def clampTo (low high n : Nat) : Nat := max low (min n high)

/-! ### Records as read (section 11.7) -/

/-- The three characters of the mode commands' replies hold the mode and the mode held from (R173). -/
def State.modeChars (s : State) : List Byte := [s.mode.code, s.mode.heldCode]

/-- The state, fill and committed count of a lane (R99, R173). -/
def State.laneChars (s : State) (l : Lane) : List Byte :=
  [(s.lane l).state.code] ++ natChars (s.lane l).fill ++ [byteOf (s.lane l).committed]

/-- The status record (R179). -/
def State.statusChars (s : State) : List Byte :=
  [s.mode.code, s.mode.heldCode, guardCode s.mc.guard, s.bcu.motion.code, s.mc.cause.code]
    ++ wordChars (s.sli.flags.zeroExtend 16) ++ wordChars (s.sli.mask.zeroExtend 16)
    ++ [byteOf s.liveCount, byteOf s.pendingSet.length]
    ++ wordChars s.bcu.count ++ natChars s.bcu.p8 ++ natChars s.sli.lineErrors

/-- The presence bits of a ticket record, from bit 0 (Table 11-3). -/
def Ticket.presence (t : Ticket) : List Bool :=
  [t.tag.isSome, t.length.isSome, t.ware.isSome, t.quality.isSome, t.outlet.isSome, t.cls.isSome, t.dest.isSome,
   t.reason.isSome, t.nominal.isSome, t.span.isSome, t.fireCount.isSome]

/-- A number whose bits, from bit 0, are a list. -/
def bitsToNat : List Bool → Nat
  | [] => 0
  | b :: rest => b.toNat + 2 * bitsToNat rest

/-- The ticket record as read, 25 characters; the characters of an absent field are 00h (Table 11-3, R178). -/
def State.ticketChars (s : State) (t : Ticket) : List Byte :=
  [byteOf t.slot.val, byteOf t.generation.toNat, t.state.code]
    ++ natChars (bitsToNat t.presence)
    ++ [byteOf (bitsToNat
        [t.overlength, t.readHeld, t.joined, t.state == .armed && s.deferredOutstanding t,
         t.marks.late, t.marks.deferred, t.marks.capped, t.marks.aborted])]
    ++ [byteOf ((t.tag.map BitVec.toNat).getD 0)]
    ++ wordChars t.induction
    ++ natChars (t.length.getD 0)
    ++ [(t.ware.map Prod.fst).getD 0, (t.ware.map Prod.snd).getD 0, byteOf ((t.quality.map BitVec.toNat).getD 0)]
    ++ [byteOf ((t.outlet.map Fin.val).getD 0), byteOf ((t.cls.map Fin.val).getD 0), (t.dest.map Dest.code).getD 0,
        (t.reason.map Reason.code).getD 0, byteOf t.hops]
    ++ wordChars (t.nominal.getD 0) ++ natChars (t.span.getD 0) ++ wordChars (t.fireCount.getD 0)

/-- The state and destination of a ticket (R37); an absent destination is FFh (R178). -/
def Ticket.placeChars (t : Ticket) : List Byte := [t.state.code, (t.dest.map Dest.code).getD absentChar]

/-- The geometry record (Table 11-4). -/
def Geometry.chars (g : Geometry) : List Byte :=
  [byteOf g.prescaleExponent] ++ natChars g.endDistance ++ natChars g.readWindow
    ++ [byteOf g.endTolerance, byteOf g.stopTime, byteOf g.faultLimit]

/-- A lane record as read, 25 characters (Table 11-4). -/
def State.laneRecordChars (s : State) (l : Lane) : List Byte :=
  let r := s.lane l
  natChars r.distance ++ natChars r.latency ++ natChars r.confirmSpan ++ [r.overflow.code] ++ natChars r.pullTime
    ++ [byteOf r.holdDuty, byteOf r.maxOnTime] ++ natChars r.recoveryTime ++ [r.polarity.code]
    ++ [r.state.code] ++ natChars r.capacity ++ natChars r.fill ++ [byteOf r.committed, byteOf r.failures]
    ++ natChars r.strays ++ [byteOf (s.routeQueue l).length, byteOf (s.confirmList l).length]

/-- A pattern record (Table 11-4); an UNUSED entry's owner is absent (R74, R178). -/
def PatternEntry.chars : PatternEntry → List Byte
  | .unused => [0, absentChar]
  | .active o => [1, byteOf o.val]
  | .suspended o => [2, byteOf o.val]

/-- A form record (Table 11-4): the class, or FFh for UNKNOWN (R178). -/
def formChars : Option WareClass → List Byte
  | none => [0xFF]
  | some c => [byteOf c.val]

/-- A class record (Table 11-4). -/
def ClassRecord.chars (r : ClassRecord) : List Byte :=
  [r.strikeOffset, byteOf r.sweep] ++ natChars r.minStroke ++ [byteOf r.guardGap, byteOf r.lateAllowance]

/-- The catalogue settings record (Table 11-4). -/
def Catalogue.settingsChars (c : Catalogue) : List Byte :=
  [c.residueLane.code, byteOf c.defaultClass.val, byteOf c.threshold]

/-- The tallies block, 142 characters (Table 11-4, R35). -/
def TicketTable.talliesChars (t : TicketTable) : List Byte :=
  (t.tallies.toList ++ t.runOffReasons.toList ++ [t.untracked]).flatMap natChars

/-! ### Answers -/

/-- What a command gives the line: its status, its data, and whether it is SOFT RESET (R172, R173). -/
abbrev Answer := Reply

/-- A reply without data. -/
def plain (st : Status) : Answer := { status := st, data := [] }

/-- OK or CLAMPED (00_scope.md section 7). -/
def clampStatus (clamped : Bool) : Status := if clamped then .clamped else .ok

/-- A refusal that changes nothing. -/
def State.refuse (s : State) (st : Status) : State × Answer := (s, plain st)

/-- A refusal BAD_PARAM that carries the index of the first failed record or value (R173). -/
def State.refuseAt (s : State) (index : Nat) : State × Answer :=
  (s, { status := .badParam, data := [byteOf index] })

end Sys2Proof.Machine
end

