-- ==== Sys2Proof/Machine/Frames.lean ====
section
/-! DEFINITION. How a complete frame is taken and answered (R166, R170, R172): the form every supervisory command's
meaning has. -/

namespace Sys2Proof.Machine

/-- While SDE is asserted the part takes no character on SRX (R172). -/
def State.sdeAsserted (s : State) : Bool := s.sli.sending.isSome

/-- A reply that is due and not begun is cancelled; if it is the reply to SOFT RESET, the reset takes effect at that
moment (R166, R172). The quiet count of no reply holds 0 (DESIGN CHOICE, log 33). -/
def State.cancelReply (s : State) : State :=
  match s.sli.reply with
  | none => s
  | some r => if r.softReset then s.softReset else { s with sli := { s.sli with reply := none, quietTimer := 0 } }

/-- A reply becomes due; the quiet count starts (R172). A station strapped to address 0 sends none (R169). -/
def State.replyDue (s : State) (a : Answer) : State :=
  if s.sli.address = 0 then s else { s with sli := { s.sli with reply := some a, quietTimer := 0 } }

/-- The frame state with its gap timer and selection (section 11.2). In UNSELECTED and IGNORING the timer does not run and
holds 0 (DESIGN CHOICE, log 33). -/
def State.setFrame (s : State) (f : FrameState) (broadcast : Bool) : State :=
  { s with sli := { s.sli with frame := f, broadcast := broadcast, gapTimer := 0 } }

/-- A frame is complete (R170): the state is IGNORING, the gap timer stops, and its last character has restarted the quiet
count. The stopped timer holds 0 (DESIGN CHOICE, log 33). No command reads any of these. -/
def State.frameDone (s : State) : State :=
  { s with sli := { s.sli with frame := .ignoring, broadcast := false, gapTimer := 0, quietTimer := 0 } }

/-- A complete frame of a station selection: the command is taken and its reply is due (R170). -/
def State.takeCommand (s : State) (f : State → State × Answer) : State := (f s.frameDone).1.replyDue (f s.frameDone).2

/-- A complete frame of a broadcast selection: taken without reply (R170). The mark of a selection by broadcast is cleared
with it, while any other broadcast code keeps it in IGNORING; nothing reads it there (DESIGN CHOICE, log 30). -/
def State.takeBroadcast (s : State) (f : State → State × Answer) : State := (f s.frameDone).1

/-- A command row: a frame addressed to this station has come to its last character (log 6). It is not taken through a
reset, while SDE is asserted (R172), or at strap address 0, which no station selection names (R169); its address
character has cancelled a reply still due (R172). -/
def State.station (s : State) (f : State → State × Answer) : Out :=
  s.event (fun s => if s.sdeAsserted || s.sli.address == 0 then s else s.cancelReply.takeCommand f)

/-- HOLD or RESUME sent by broadcast, which every strap address takes (R169, R170). -/
def State.broadcasting (s : State) (f : State → State × Answer) : Out :=
  s.event (fun s => if s.sdeAsserted then s else s.cancelReply.takeBroadcast f)

/-- A command that changes nothing and answers OK with data. -/
def State.answer (s : State) (data : List Byte) : State × Answer := (s, { status := .ok, data := data })

end Sys2Proof.Machine
end

