-- ==== Sys2Proof/Machine/CatalogueFrames.lean ====
section
/-! DEFINITION. Writing and reading the Ware Catalogue (sections 4.7 and 4.8). -/

namespace Sys2Proof.Machine

/-! ### Blocks (R69, R71, R74) -/

/-- A block of `count` entries from `first` lies within a table of indices `low` to `high` (R69 test 1, R97). -/
def blockInside (low high first count : Nat) : Bool := decide (low ≤ first) && decide (first + count ≤ high + 1)

/-- The records of a block, decoded in index order; the index of the first record that fails its test otherwise (R69
test 2). -/
def decodeBlock {α β : Type} (f : α → Option β) : Nat → List α → Except Nat (List β)
  | _, [] => .ok []
  | i, r :: rest =>
    match f r with
    | none => .error i
    | some x =>
      match decodeBlock f (i + 1) rest with
      | .error j => .error j
      | .ok xs => .ok (x :: xs)

/-- Entries take their new values from an index on, together (R71). -/
def writeFrom {α : Type} {n : Nat} (v : Vector α n) : Nat → List α → Vector α n
  | _, [] => v
  | i, x :: rest => writeFrom (if h : i < n then v.set i x h else v) (i + 1) rest

/-- The entries of a table from an index on, in index order (R74). -/
def readFrom {α : Type} {n : Nat} (v : Vector α n) (first count : Nat) : List α :=
  (v.toList.drop first).take count

/-- The first index and count that a block's reply carries (R71, R175). -/
def blockChars (first : Byte) (count : Nat) : List Byte := [first, byteOf count]

/-- A block write to a table: the tests of R69 in order, then the write as one step (R71). -/
def State.blockWrite {α β : Type} {n : Nat} (s : State) (first : Byte) (records : List α) (decode : α → Option β)
    (entry : β → α → Bool) (table : Vector β n) (store : Vector β n → State) : State × Answer :=
  if !blockCountOk records.length then s.refuse .badLength
  else if !blockInside 0 (n - 1) first.toNat records.length then s.refuseAt first.toNat
  else
    match decodeBlock decode first.toNat records with
    | .error i => s.refuseAt i
    | .ok entries =>
      (store (writeFrom table first.toNat entries),
        { status := clampStatus ((entries.zip records).any (fun p => entry p.1 p.2))
          data := blockChars first records.length })

/-- A block read of a table (R74). -/
def State.blockRead {α : Type} {n : Nat} (s : State) (first count : Byte) (table : Vector α n) (chars : α → List Byte) :
    State × Answer :=
  if !blockCountOk count.toNat then s.refuse .badLength
  else if !blockInside 0 (n - 1) first.toNat count.toNat then s.refuse .badParam
  else s.answer (blockChars first count.toNat ++ (readFrom table first.toNat count.toNat).flatMap chars)

/-! ### Records as written (R70) -/

/-- An owner outlet or class character 0 to 7. -/
def eighth? (b : Byte) : Option (Fin 8) := if h : b.toNat < 8 then some ⟨b.toNat, h⟩ else none

/-- A pattern record; the owner of an UNUSED record is not examined (R70). -/
def patternParam? (w : PatternWrite) : Option PatternEntry :=
  match w.state.toNat with
  | 0 => some .unused
  | 1 => (eighth? w.owner).map .active
  | 2 => (eighth? w.owner).map .suspended
  | _ => none

/-- A form record: a class, or FFh for UNKNOWN (R70, R178). -/
def formParam? (b : Byte) : Option (Option WareClass) :=
  if b = 0xFF then some none else (eighth? b).map some

/-- A class record with its min stroke clamped to 1 to 1023 (R70). -/
def classParam (w : ClassWrite) : ClassRecord where
  strikeOffset := w.strikeOffset
  sweep := w.sweep.toNat
  minStroke := clampTo 1 1023 w.minStroke.toNat
  guardGap := w.guardGap.toNat
  lateAllowance := w.lateAllowance.toNat

/-- Nothing in a record was clamped. -/
def neverClamped {α β : Type} (_ : β) (_ : α) : Bool := false

/-! ### The commands -/

/-- WRITE PATTERNS (R69 to R72). -/
def cmdWritePatterns (first : Byte) (records : List PatternWrite) (s : State) : State × Answer :=
  s.blockWrite first records patternParam? neverClamped s.cat.patterns
    (fun v => { s with cat := { s.cat with patterns := v } })

/-- WRITE_PATTERNS (R69). -/
def execWritePatterns (first : Byte) (records : List PatternWrite) (s : State) : Out :=
  s.station (cmdWritePatterns first records)

/-- WRITE FORMS (R69 to R72). -/
def cmdWriteForms (first : Byte) (records : List Byte) (s : State) : State × Answer :=
  s.blockWrite first records formParam? neverClamped s.cat.forms
    (fun v => { s with cat := { s.cat with forms := v } })

/-- WRITE_FORMS (R69). -/
def execWriteForms (first : Byte) (records : List Byte) (s : State) : Out := s.station (cmdWriteForms first records)

/-- WRITE CLASSES (R69 to R72); a min stroke out of range is clamped (R70). -/
def cmdWriteClasses (first : Byte) (records : List ClassWrite) (s : State) : State × Answer :=
  s.blockWrite first records (fun w => some (classParam w)) (fun r w => r.minStroke != w.minStroke.toNat) s.cat.classes
    (fun v => { s with cat := { s.cat with classes := v } })

/-- WRITE_CLASSES (R69). -/
def execWriteClasses (first : Byte) (records : List ClassWrite) (s : State) : Out :=
  s.station (cmdWriteClasses first records)

/-- WRITE ROUTES (R69 to R72). -/
def cmdWriteRoutes (first : Byte) (records : List Byte) (s : State) : State × Answer :=
  s.blockWrite first records (fun b => destParam? b.toNat) neverClamped s.cat.routes
    (fun v => { s with cat := { s.cat with routes := v } })

/-- WRITE_ROUTES (R69). -/
def execWriteRoutes (first : Byte) (records : List Byte) (s : State) : Out := s.station (cmdWriteRoutes first records)

/-- WRITE CATALOGUE SETTINGS (R73): a refusal carries the position of the first failed value. The reply carries
the three values as applied (R175), without the first index and count of R71 (DEDUCED, log 14). -/
def cmdWriteSettings (r : SettingsWrite) (s : State) : State × Answer :=
  match destParam? r.residueLane.toNat, eighth? r.defaultClass with
  | none, _ => s.refuseAt 0
  | some _, none => s.refuseAt 1
  | some residue, some cls =>
    let threshold := min r.threshold.toNat 15
    let cat := { s.cat with residueLane := residue, defaultClass := cls, threshold := threshold }
    ({ s with cat := cat }, { status := clampStatus (threshold != r.threshold.toNat), data := cat.settingsChars })

/-- WRITE_CATALOGUE_SETTINGS (R73). -/
def execWriteCatalogueSettings (r : SettingsWrite) (s : State) : Out := s.station (cmdWriteSettings r)

/-- READ PATTERNS (R74). -/
def cmdReadPatterns (first count : Byte) (s : State) : State × Answer :=
  s.blockRead first count s.cat.patterns PatternEntry.chars

/-- READ_PATTERNS (R74). -/
def execReadPatterns (first count : Byte) (s : State) : Out := s.station (cmdReadPatterns first count)

/-- READ FORMS (R74). -/
def cmdReadForms (first count : Byte) (s : State) : State × Answer := s.blockRead first count s.cat.forms formChars

/-- READ_FORMS (R74). -/
def execReadForms (first count : Byte) (s : State) : Out := s.station (cmdReadForms first count)

/-- READ CLASSES (R74). -/
def cmdReadClasses (first count : Byte) (s : State) : State × Answer :=
  s.blockRead first count s.cat.classes ClassRecord.chars

/-- READ_CLASSES (R74). -/
def execReadClasses (first count : Byte) (s : State) : Out := s.station (cmdReadClasses first count)

/-- READ ROUTES (R74). -/
def cmdReadRoutes (first count : Byte) (s : State) : State × Answer :=
  s.blockRead first count s.cat.routes (fun d => [d.code])

/-- READ_ROUTES (R74). -/
def execReadRoutes (first count : Byte) (s : State) : Out := s.station (cmdReadRoutes first count)

/-- READ CATALOGUE SETTINGS (R74). -/
def cmdReadSettings (s : State) : State × Answer := s.answer s.cat.settingsChars

/-- READ_CATALOGUE_SETTINGS (R74). -/
def execReadCatalogueSettings (s : State) : Out := s.station cmdReadSettings

end Sys2Proof.Machine
end

