-- ==== Sys2Proof/Machine/LaneFrames.lean ====
section
/-! DEFINITION. The lane commands (sections 6.1, 6.2 and 6.7). -/

namespace Sys2Proof.Machine

/-! ### WRITE LANES (R97) -/

/-- The configuration fields of a lane record. -/
structure LaneConfig where
  distance : Nat
  latency : Nat
  confirmSpan : Nat
  overflow : Dest
  pullTime : Nat
  holdDuty : Nat
  maxOnTime : Nat
  recoveryTime : Nat
  polarity : Polarity
  deriving DecidableEq, Repr

/-- A polarity character (R178). -/
def polarityParam? (b : Byte) : Option Polarity :=
  match b.toNat with
  | 0 => some .activeHigh
  | 1 => some .activeLow
  | _ => none

/-- A lane record as written: the overflow link and polarity are tested, the numbers clamped (R97). -/
def laneConfig? (w : LaneWrite) : Option LaneConfig :=
  match destParam? w.overflow.toNat, polarityParam? w.polarity with
  | some overflow, some polarity => some
      { distance := min w.distance.toNat 30000
        latency := w.latency.toNat
        confirmSpan := clampTo 1 1023 w.confirmSpan.toNat
        overflow := overflow
        pullTime := w.pullTime.toNat
        holdDuty := min w.holdDuty.toNat 64
        maxOnTime := max 1 w.maxOnTime.toNat
        recoveryTime := w.recoveryTime.toNat
        polarity := polarity }
  | some _, none => none
  | none, some _ => none
  | none, none => none

/-- A value of the record was clamped (R97). -/
def laneClamped (c : LaneConfig) (w : LaneWrite) : Bool :=
  c.distance != w.distance.toNat || c.confirmSpan != w.confirmSpan.toNat || c.holdDuty != w.holdDuty.toNat
    || c.maxOnTime != w.maxOnTime.toNat

/-- A lane record takes a configuration; a lane written with distance 0 is CLOSED from then on (R97). -/
def LaneRecord.configure (r : LaneRecord) (c : LaneConfig) : LaneRecord :=
  { r with
    state := if c.distance = 0 then .closed else r.state
    distance := c.distance
    latency := c.latency
    confirmSpan := c.confirmSpan
    overflow := c.overflow
    pullTime := c.pullTime
    holdDuty := c.holdDuty
    maxOnTime := c.maxOnTime
    recoveryTime := c.recoveryTime
    polarity := c.polarity }

/-- Lanes from an index on take their configurations, together (R97). -/
def State.configureFrom (s : State) : Nat → List LaneConfig → State
  | _, [] => s
  | n, c :: rest =>
    match laneParam? n with
    | some l => (s.modLane l (fun r => r.configure c)).configureFrom (n + 1) rest
    | none => s.configureFrom (n + 1) rest

/-- WRITE LANES: the mode, the tests in turn, then the write as one step. A block outside lanes 1 to 12 is refused with
its first index, as R69 has it for the catalogue (DESIGN CHOICE, log 31). In SETUP no ticket is live, so the pass of a
lane that this takes out of OPEN finds nothing to re-resolve (R97). -/
def cmdWriteLanes (first : Byte) (records : List LaneWrite) (s : State) : State × Answer :=
  if !blockCountOk records.length then s.refuse .badLength
  else if s.mode ≠ .setup then s.refuse .notInMode
  else if !blockInside 1 12 first.toNat records.length then s.refuseAt first.toNat
  else
    match decodeBlock laneConfig? first.toNat records with
    | .error i => s.refuseAt i
    | .ok configs =>
      (s.configureFrom first.toNat configs,
        { status := clampStatus ((configs.zip records).any (fun p => laneClamped p.1 p.2))
          data := blockChars first records.length })

/-- WRITE_LANES (R97). -/
def execWriteLanes (first : Byte) (records : List LaneWrite) (s : State) : Out :=
  s.station (cmdWriteLanes first records)

/-! ### Lane states and capacity (R99 to R102) -/

/-- The reply of a lane command that names a lane 1 to 12 (R173). -/
def State.laneAnswer (s : State) (st : Status) (l : Lane) : State × Answer :=
  (s, { status := st, data := s.laneChars l })

/-- A lane command that names a lane outside 1 to 12 is refused BAD_PARAM (R96). -/
def State.onLane (s : State) (lane : Byte) (f : Lane → State × Answer) : State × Answer :=
  match laneParam? lane.toNat with
  | some l => f l
  | none => s.refuse .badParam

/-- A CLOSED or FAULTED lane is opened: failures become 0, and the state OPEN or FULL (R99). -/
def State.openLane (s : State) (l : Lane) : State :=
  let s := s.modLane l (fun r => { r with failures := 0 })
  s.changeLaneState l (if (s.lane l).fill < (s.lane l).capacity then .opened else .full)

/-- OPEN LANE (R99). -/
def cmdOpenLane (lane : Byte) (s : State) : State × Answer :=
  s.onLane lane fun l =>
    if (s.lane l).distance = 0 then s.laneAnswer .lane l
    else
      match (s.lane l).state with
      | .closed => (s.openLane l).laneAnswer .ok l
      | .faulted => (s.openLane l).laneAnswer .ok l
      | .opened => s.laneAnswer .ok l
      | .full => s.laneAnswer .ok l

/-- OPEN_LANE (R99). -/
def execOpenLane (lane : Byte) (s : State) : Out := s.station (cmdOpenLane lane)

/-- CLOSE LANE (R100). -/
def cmdCloseLane (lane : Byte) (s : State) : State × Answer :=
  s.onLane lane fun l => (s.changeLaneState l .closed).laneAnswer .ok l

/-- CLOSE_LANE (R100). -/
def execCloseLane (lane : Byte) (s : State) : Out := s.station (cmdCloseLane lane)

/-- A lane's capacity is written and its state follows (R101). -/
def State.setCapacity (s : State) (l : Lane) (capacity : Nat) : State :=
  let s := s.modLane l (fun r => { r with capacity := capacity })
  match (s.lane l).state with
  | .opened => if capacity ≤ (s.lane l).fill then s.changeLaneState l .full else s
  | .full => if (s.lane l).fill < capacity then s.changeLaneState l .opened else s
  | .closed => s
  | .faulted => s

/-- SET CAPACITY (R101). -/
def cmdSetCapacity (lane : Byte) (capacity : Word) (s : State) : State × Answer :=
  s.onLane lane fun l =>
    let c := min capacity.toNat 999
    (s.setCapacity l c).laneAnswer (clampStatus (c != capacity.toNat)) l

/-- SET_CAPACITY (R101). -/
def execSetCapacity (lane : Byte) (capacity : Word) (s : State) : Out := s.station (cmdSetCapacity lane capacity)

/-- The lane's rack is replaced by an empty one (R102). -/
def State.exchangeRack (s : State) (l : Lane) : State :=
  let s := s.modLane l (fun r => { r with fill := 0 })
  if (s.lane l).state = .full ∧ 0 < (s.lane l).capacity then s.changeLaneState l .opened else s

/-- RACK EXCHANGED (R102). -/
def cmdRackExchanged (lane : Byte) (s : State) : State × Answer :=
  s.onLane lane fun l => (s.exchangeRack l).laneAnswer .ok l

/-- RACK_EXCHANGED (R102). -/
def execRackExchanged (lane : Byte) (s : State) : Out := s.station (cmdRackExchanged lane)

/-- READ LANES (R112). -/
def cmdReadLanes (first count : Byte) (s : State) : State × Answer :=
  if !blockCountOk count.toNat then s.refuse .badLength
  else if !blockInside 1 12 first.toNat count.toNat then s.refuse .badParam
  else s.answer (blockChars first count.toNat
    ++ ((allLanes.drop (first.toNat - 1)).take count.toNat).flatMap s.laneRecordChars)

/-- READ_LANES (R112). -/
def execReadLanes (first count : Byte) (s : State) : Out := s.station (cmdReadLanes first count)

end Sys2Proof.Machine
end

