-- ==== Sys2Proof/Machine/Modes.lean ====
section
/-! DEFINITION. The Mode Controller (chapter 10): HOLD and the guard, SET MODE with the geometry checks (R14, R15),
RESUME, and the SOFT RESET command. -/

namespace Sys2Proof.Machine

/-! ### HOLD and the guard (R159 to R161) -/

/-- The entry into HOLD (R159): the mode held from is recorded, HOLD_ENTERED set, and every stroke in progress aborted
(R139). -/
def State.enterHold (s : State) (from' : HeldFrom) : State :=
  ((s.setMode (.hold from')).raise .holdEntered).forLanes State.abortLane

/-- A change of GUARD to open (R160). -/
def State.guardOpens (s : State) : State :=
  match s.mc.guard with
  | .opened => s
  | .closed =>
    let s := { s with mc := { s.mc with guard := .opened } }
    match s.mode with
    | .run => s.enterHold .run
    | .drain => s.enterHold .drain
    | .hold _ => s
    | .setup => s.endTestStrokes

/-- GUARD_OPENING (R160). -/
def execGuardOpening (s : State) : Out := s.event State.guardOpens

/-- GUARD_CLOSING: the guard state alone changes (R160). -/
def execGuardClosing (s : State) : Out := s.event (fun s => { s with mc := { s.mc with guard := .closed } })

/-- The reply of a mode command (R173). -/
def State.modeAnswer (s : State) (st : Status) : State × Answer := (s, { status := st, data := s.modeChars })

/-- HOLD (R159). -/
def cmdHold (s : State) : State × Answer :=
  match s.mode with
  | .setup => s.modeAnswer .state
  | .run => (s.enterHold .run).modeAnswer .ok
  | .drain => (s.enterHold .drain).modeAnswer .ok
  | .hold _ => s.modeAnswer .ok

/-- HOLD, by station or broadcast (R159, R170). -/
def execHold (broadcast : Bool) (s : State) : Out := if broadcast then s.broadcasting cmdHold else s.station cmdHold

/-- The mode that HOLD is held from. -/
def HeldFrom.mode : HeldFrom → Mode
  | .run => .run
  | .drain => .drain

/-- RESUME (R161). Every reach of the present count that is still outstanding is taken in HOLD first (R5): the capture
that came with the count (R7), and a fire whose count HOLD has seen reached, which is missed though RESUME follows at
once (R129). A restored DRAIN with an empty belt list ends in SETUP within the event. -/
def cmdResume (s : State) : State × Answer :=
  match s.mode, s.mc.guard with
  | .hold h, .closed => (s.settle.setMode h.mode).drainCheck.modeAnswer .ok
  | .hold _, .opened => s.modeAnswer .state
  | .setup, _ => s.modeAnswer .state
  | .run, _ => s.modeAnswer .state
  | .drain, _ => s.modeAnswer .state

/-- RESUME, by station or broadcast (R161, R170). -/
def execResume (broadcast : Bool) (s : State) : Out :=
  if broadcast then s.broadcasting cmdResume else s.station cmdResume

/-! ### The checks before RUN (R14, R15) -/

/-- The installed lanes in lane-number order (R15). -/
def State.installed (s : State) : List Lane := allLanes.filter (fun l => (s.lane l).distance != 0)

/-- The lane number a reply names. -/
def laneNumber (l : Lane) : Nat := l.val + 1

/-- Check 1: the first installed lane whose distance is not greater than its predecessor's (Table 1-5). -/
def State.firstOutOfOrder (s : State) : List Lane → Option Lane
  | [] => none
  | [_] => none
  | a :: b :: rest => if (s.lane a).distance < (s.lane b).distance then s.firstOutOfOrder (b :: rest) else some b

/-- Check 2 (Table 1-5). -/
def State.firstTooNear (s : State) : Option Lane :=
  match s.installed.head? with
  | none => none
  | some l => if 1414 + s.geo.readWindow ≤ (s.lane l).distance then none else some l

/-- Check 3 passes (Table 1-5). -/
def State.endFarEnough (s : State) : Bool :=
  (match s.installed.getLast? with
    | none => true
    | some l => decide ((s.lane l).distance + (s.lane l).confirmSpan + s.geo.endTolerance + 1 ≤ s.geo.endDistance))
    && decide (s.geo.endDistance ≤ 30000)

/-- Check 4 passes: the residue lane is 0 or names an installed lane (Table 1-5). -/
def State.residueInstalled (s : State) : Bool :=
  match s.cat.residueLane with
  | .runOff => true
  | .lane l => (s.lane l).distance != 0

/-- The first check that fails, as its number and the lane it names, taken in number order (R14, R15). -/
def State.failedCheck (s : State) : Option (Nat × Nat) :=
  match s.firstOutOfOrder s.installed with
  | some l => some (1, laneNumber l)
  | none =>
    match s.firstTooNear with
    | some l => some (2, laneNumber l)
    | none =>
      if !s.endFarEnough then some (3, (s.installed.getLast?.map laneNumber).getD 0)
      else if !s.residueInstalled then some (4, s.cat.residueLane.number)
      else if s.installed.isEmpty then some (5, 0)
      else none

/-- The data of a GEOMETRY refusal: the check number and lane (R14), and the mode characters every SET MODE reply
carries (R173), in an order the manual leaves open (log 13). -/
def State.geometryData (s : State) (check lane : Nat) : List Byte :=
  if Config.geometryModeFirst then s.modeChars ++ [byteOf check, byteOf lane]
  else [byteOf check, byteOf lane] ++ s.modeChars

/-! ### SET MODE (R156 to R158, R162) -/

/-- SET MODE RUN taken in SETUP (R156). -/
def State.enterRun (s : State) : State × Answer :=
  match s.failedCheck with
  | some (check, lane) => (s, { status := .geometry, data := s.geometryData check lane })
  | none =>
    match s.mc.guard with
    | .opened => s.modeAnswer .state
    | .closed => (s.endTestStrokes.setMode .run).modeAnswer .ok

/-- SET MODE SETUP taken in HOLD: the flush, then the entry into SETUP (R162). -/
def State.flushToSetup (s : State) : State := s.flush.enterSetup

/-- SET MODE (R156, R157, Table 10-3). -/
def cmdSetMode (code : Byte) (s : State) : State × Answer :=
  match code.toNat, s.mode with
  | 0, .setup => s.modeAnswer .ok
  | 0, .run => s.modeAnswer .state
  | 0, .drain => s.modeAnswer .state
  | 0, .hold _ => s.flushToSetup.modeAnswer .ok
  | 1, .setup => s.enterRun
  | 1, .run => s.modeAnswer .ok
  | 1, .drain => (s.setMode .run).modeAnswer .ok
  | 1, .hold _ => s.modeAnswer .state
  | 2, .setup => s.modeAnswer .state
  | 2, .run => (s.setMode .drain).drainCheck.modeAnswer .ok
  | 2, .drain => s.modeAnswer .ok
  | 2, .hold _ => s.modeAnswer .state
  | _, _ => s.modeAnswer .badParam

/-- SET_MODE (R157). -/
def execSetMode (code : Byte) (s : State) : Out := s.station (cmdSetMode code)

/-- SOFT RESET: the reply is sent first (R166). -/
def cmdSoftReset (s : State) : State × Answer := (s, { status := .ok, data := [], softReset := true })

/-- SOFT_RESET (R166). -/
def execSoftReset (s : State) : Out := s.station cmdSoftReset

end Sys2Proof.Machine
end

