-- ==== Sys2Proof/Machine/Settings.lean ====
section
/-! DEFINITION. Geometry, carrier, test strokes, and the status and attention commands (R12, R132, R140, R174, R177,
R179). -/

namespace Sys2Proof.Machine

/-- WRITE GEOMETRY is applied: the six settings together, the prescale remainder cleared (R2, R12); a stop timer
already at the new stop time takes the stop event at once (R10). -/
def State.applyGeometry (s : State) (g : Geometry) : State :=
  let s := { s with geo := g, bcu := { s.bcu with remainder := 0 } }
  if s.bcu.motion = .moving ∧ s.stopLimit ≤ s.bcu.stopTimer then s.stopBelt else s

/-- The geometry as clamped (R12). -/
def geometryApplied (r : GeometryRecord) : Geometry where
  prescaleExponent := r.prescaleExponent.toNat
  endDistance := clampTo 1 30000 r.endDistance.toNat
  readWindow := min r.readWindow.toNat 1023
  endTolerance := r.endTolerance.toNat
  stopTime := max 1 r.stopTime.toNat
  faultLimit := clampTo 1 15 r.faultLimit.toNat

/-- The geometry as written, unclamped. -/
def geometryWritten (r : GeometryRecord) : Geometry where
  prescaleExponent := r.prescaleExponent.toNat
  endDistance := r.endDistance.toNat
  readWindow := r.readWindow.toNat
  endTolerance := r.endTolerance.toNat
  stopTime := r.stopTime.toNat
  faultLimit := r.faultLimit.toNat

/-- WRITE GEOMETRY (R12). -/
def cmdWriteGeometry (r : GeometryRecord) (s : State) : State × Answer :=
  if s.mode ≠ .setup then s.refuse .notInMode
  else if 7 < r.prescaleExponent.toNat then s.refuse .badParam
  else (s.applyGeometry (geometryApplied r), { status := clampStatus ((geometryApplied r) != geometryWritten r), data := (geometryApplied r).chars })

/-- WRITE_GEOMETRY (R12). -/
def execWriteGeometry (r : GeometryRecord) (s : State) : Out := s.station (cmdWriteGeometry r)

/-- WRITE CARRIER (R132). -/
def cmdWriteCarrier (select : Byte) (s : State) : State × Answer :=
  if s.mode ≠ .setup then s.refuse .notInMode
  else if 7 < select.toNat then s.refuse .badParam
  else
    ({ s with carrier := { s.carrier with pending := some select.toNat } }).answer [byteOf s.carrier.select, select]

/-- WRITE_CARRIER (R132). -/
def execWriteCarrier (select : Byte) (s : State) : Out := s.station (cmdWriteCarrier select)

/-- TEST STROKE: the tests in turn, and the stroke they let begin (R140). -/
def cmdTestStroke (lane duration : Byte) (s : State) : State × Answer :=
  if s.mode ≠ .setup then s.refuse .notInMode
  else
    match laneParam? lane.toNat with
    | none => s.refuse .badParam
    | some l =>
      if s.mc.guard = .opened then s.refuse .state
      else if (s.drive l).state ≠ .idle then s.refuse .busy
      else
        let d := max 1 duration.toNat
        (s.startStroke l (.test (d * 10000)),
          { status := clampStatus (d != duration.toNat), data := [lane, byteOf d] })

/-- TEST_STROKE (R140). -/
def execTestStroke (lane duration : Byte) (s : State) : Out := s.station (cmdTestStroke lane duration)

/-- READ STATUS (R179). -/
def cmdReadStatus (s : State) : State × Answer := s.answer s.statusChars

/-- READ_STATUS (R179). -/
def execReadStatus (s : State) : Out := s.station cmdReadStatus

/-- ACK ATTENTION; the reply carries the flags after the command (R174, R177). -/
def cmdAckAttention (flags : Word) (s : State) : State × Answer :=
  (s.acknowledge flags).answer (wordChars ((s.acknowledge flags).sli.flags.zeroExtend 16))

/-- ACK_ATTENTION (R177). -/
def execAckAttention (flags : Word) (s : State) : Out := s.station (cmdAckAttention flags)

/-- SET MASK; the reply carries the mask (R174, R177). -/
def cmdSetMask (mask : Word) (s : State) : State × Answer :=
  (s.setMaskTo mask).answer (wordChars ((s.setMaskTo mask).sli.mask.zeroExtend 16))

/-- SET_MASK (R177). -/
def execSetMask (mask : Word) (s : State) : Out := s.station (cmdSetMask mask)

/-- READ READER COUNTERS: the reader-error and stray-report counters, the no-read streak and the number of tags in the
trigger FIFO (R174; widths, log 14). -/
def cmdReadReaderCounters (s : State) : State × Answer :=
  s.answer (natChars s.rli.errors ++ natChars s.rli.strays ++ [byteOf s.ind.noReadStreak, byteOf s.rli.fifo.length])

/-- READ_READER_COUNTERS (R174). -/
def execReadReaderCounters (s : State) : Out := s.station cmdReadReaderCounters

end Sys2Proof.Machine
end

