-- ==== Sys2Proof/Machine/TicketFrames.lean ====
section
/-! DEFINITION. The ticket commands: reads, tallies, REDIRECT and PULL (sections 2.7, 2.8, 9.5). -/

namespace Sys2Proof.Machine

/-! ### Reading (R33 to R36, R153) -/

/-- READ TICKET (R33). -/
def cmdReadTicket (slot generation : Byte) (s : State) : State × Answer :=
  if !handleInRange slot generation then s.refuse .badParam
  else
    match s.named? slot generation with
    | none => s.refuse .stale
    | some t => s.answer (s.ticketChars t)

/-- READ_TICKET (R33). -/
def execReadTicket (slot generation : Byte) (s : State) : Out := s.station (cmdReadTicket slot generation)

/-- The tickets of a scope, in the collection's order (R34, codes of R175); the lane is examined for ROUTE and CONFIRM
alone. An unknown scope or a lane out of range has none. -/
def State.scope? (s : State) (scope lane : Byte) : Option (List Ticket) :=
  match scope.toNat with
  | 0 => some s.tt.belt
  | 1 => some s.pendingSet
  | 2 => (laneParam? lane.toNat).map s.routeQueue
  | 3 => (laneParam? lane.toNat).map s.confirmList
  | 4 => some s.endAccounting
  | _ => none

/-- A handle as slot and generation (R175). -/
def Ticket.handleChars (t : Ticket) : List Byte := [byteOf t.slot.val, byteOf t.generation.toNat]

/-- FIND TICKETS: not admitted in SETUP (R164); the scope count, the number returned and at most 16 handles after the
first `skip` (R34). -/
def cmdFindTickets (scope lane skip : Byte) (s : State) : State × Answer :=
  if s.mode = .setup then s.refuse .notInMode
  else
    match s.scope? scope lane with
    | none => s.refuse .badParam
    | some ts =>
      let page := (ts.drop skip.toNat).take 16
      s.answer ([byteOf ts.length, byteOf page.length] ++ page.flatMap Ticket.handleChars)

/-- FIND_TICKETS (R34). -/
def execFindTickets (scope lane skip : Byte) (s : State) : Out := s.station (cmdFindTickets scope lane skip)

/-- READ TALLIES (R35). -/
def cmdReadTallies (s : State) : State × Answer := s.answer s.tt.talliesChars

/-- READ_TALLIES (R35). -/
def execReadTallies (s : State) : Out := s.station cmdReadTallies

/-- Every counter that CLEAR TALLIES sets to 0 (R36). -/
def State.clearTallies (s : State) : State :=
  { s with
    tt := { s.tt with
      tallies := Vector.replicate 63 0, runOffReasons := Vector.replicate 7 0, untracked := 0 }
    rli := { s.rli with errors := 0, strays := 0 }
    em := { s.em with strays := 0 }
    sli := { s.sli with lineErrors := 0 } }.forLanes (fun s l => s.modLane l (fun r => { r with strays := 0 }))

/-- CLEAR TALLIES (R36). -/
def cmdClearTallies (s : State) : State × Answer := s.clearTallies.answer []

/-- CLEAR_TALLIES (R36). -/
def execClearTallies (s : State) : Out := s.station cmdClearTallies

/-- READ END MONITOR (R153, order of R175). -/
def cmdReadEndMonitor (s : State) : State × Answer :=
  s.answer ([eyeCode s.em.eye] ++ natChars s.em.strays
    ++ [byteOf (s.tt.belt.filter (fun t => t.state == .runningOff)).length,
        byteOf (s.tt.belt.filter (fun t => t.state == .doubt)).length]
    ++ natChars s.geo.endDistance ++ [byteOf s.geo.endTolerance])

/-- READ_END_MONITOR (R153). -/
def execReadEndMonitor (s : State) : Out := s.station cmdReadEndMonitor

/-! ### REDIRECT (R37, R38, R90) -/

/-- The states in which a ticket may be redirected (R37). -/
def State.redirectable (s : State) (t : Ticket) : Bool :=
  match t.state with
  | .routed => true
  | .armed => !s.deferredOutstanding t
  | .runningOff => true
  | .pendingRead => false
  | .stroking => false
  | .confirming => false
  | .doubt => false

/-- The ticket as it would be at a target (R90). -/
def Ticket.aimedAt (t : Ticket) (target : Dest) : Ticket :=
  { t with
    dest := some target
    state := match target with
      | .runOff => .runningOff
      | .lane _ => .routed }

/-- The crowding rule as a test: a pair of the ticket at its target would be split (R90). -/
def State.redirectSplits (s : State) (t : Ticket) (target : Dest) : Bool :=
  let aimed := t.aimedAt target
  (match beforeIn s.tt.belt t.slot with
    | some a => s.wouldSplit a aimed
    | none => false)
  || (match afterIn s.tt.belt t.slot with
    | some b => s.wouldSplit aimed b
    | none => false)

/-- A target lane is eligible, the ticket's own commitment counted as released (R37, R78); lane 0 needs no test. -/
def State.targetEligible (s : State) (t : Ticket) (target : Dest) : Bool :=
  match target with
  | .runOff => true
  | .lane l => (s.releaseOf t).eligible t (t.cls.getD 0) l

/-- A redirected ticket's place at run-off (R38 step 4): counted when it was destined to a lane, and in end accounting
from then on; a ticket already RUNNING_OFF keeps its bounds. -/
def State.redirectToRunOff (s : State) (t : Ticket) : State :=
  match t.laneDest with
  | some _ => s.sendToRunOff t.slot .redirected
  | none => s.modTicket t.slot (fun t => { t with reason := some .redirected, joined := false })

/-- REDIRECT, as one step (R38). -/
def State.applyRedirect (s : State) (t : Ticket) (target : Dest) : State :=
  let s := ((s.disarmOf t).releaseOf t).modTicket t.slot (fun t =>
    { t with hops := 0, marks := {}, fireCount := none })
  let s := match target with
    | .lane l => s.giveLane t.slot (t.cls.getD 0) l .redirected 0
    | .runOff => s.redirectToRunOff t
  (s.crowd t.slot []).attendAll

/-- The state and destination of a redirected ticket after the command; a ticket that ended within it is told as it
stood (log 20). -/
def State.placeAfter (s : State) (slot : Slot) : List Byte :=
  match s.ticketAt? slot with
  | some t => t.placeChars
  | none => [TicketState.code .runningOff, 0]

/-- REDIRECT: the tests of R37 in turn, and R38. -/
def cmdRedirect (slot generation lane : Byte) (s : State) : State × Answer :=
  if s.mode = .setup then s.refuse .notInMode
  else if !handleInRange slot generation then s.refuse .badParam
  else
    match destParam? lane.toNat, s.named? slot generation with
    | none, _ => s.refuse .badParam
    | some _, none => s.refuse .stale
    | some target, some t =>
      if !s.redirectable t then (s, { status := .state, data := t.placeChars })
      else if !s.targetEligible t target then s.refuse .lane
      else if s.redirectSplits t target then s.refuse .crowded
      else (s.applyRedirect t target, { status := .ok, data := (s.applyRedirect t target).placeAfter t.slot })

/-- REDIRECT (R38). -/
def execRedirect (slot generation lane : Byte) (s : State) : Out := s.station (cmdRedirect slot generation lane)

/-! ### PULL (R40) -/

/-- The named ticket is retired PULLED, and its lane's next head attended to (R28, R40). -/
def State.pullTicket (s : State) (t : Ticket) : State :=
  match t.laneDest with
  | some l => (s.retire t.slot .pulled).attendLane l
  | none => s.retire t.slot .pulled

/-- PULL: the tests of R40 in turn. -/
def cmdPull (slot generation : Byte) (s : State) : State × Answer :=
  if s.mode = .setup then s.refuse .notInMode
  else if !handleInRange slot generation then s.refuse .badParam
  else
    match s.named? slot generation with
    | none => s.refuse .stale
    | some t => if t.state = .stroking then s.refuse .state else (s.pullTicket t, plain .ok)

/-- PULL (R40). -/
def execPull (slot generation : Byte) (s : State) : Out := s.station (cmdPull slot generation)

end Sys2Proof.Machine
end

