-- ==== Sys2Proof/Machine/Line.lean ====
section
/-! DEFINITION. The supervisory line character by character (sections 11.1 to 11.3): selection, frame assembly, the
framing tests and line errors. A frame assembled here comes to the same meaning as the command row that stands for
it. -/

namespace Sys2Proof.Machine

/-! ### Records from characters (Table 11-4) -/

/-- A geometry record from its eight characters. -/
def geometryRecord? : List Byte → Option GeometryRecord
  | [p, e0, e1, r0, r1, tol, stop, fault] => some ⟨p, wordOf e0 e1, wordOf r0 r1, tol, stop, fault⟩
  | _ => none

/-- Lane records from their characters, fourteen each. -/
def laneRecords : List Byte → List LaneWrite
  | d0 :: d1 :: t0 :: t1 :: c0 :: c1 :: ov :: p0 :: p1 :: du :: mx :: r0 :: r1 :: pol :: rest =>
    ⟨wordOf d0 d1, wordOf t0 t1, wordOf c0 c1, ov, wordOf p0 p1, du, mx, wordOf r0 r1, pol⟩ :: laneRecords rest
  | _ => []

/-- Pattern records from their characters, two each. -/
def patternRecords : List Byte → List PatternWrite
  | st :: owner :: rest => ⟨st, owner⟩ :: patternRecords rest
  | _ => []

/-- Class records from their characters, six each. -/
def classRecords : List Byte → List ClassWrite
  | so :: sw :: m0 :: m1 :: gg :: la :: rest => ⟨so, sw, wordOf m0 m1, gg, la⟩ :: classRecords rest
  | _ => []

/-- The command that a code and its parameter characters make (R174, R175). -/
def commandOf (code : Byte) (params : List Byte) (s : State) : State × Answer :=
  match code.toNat, params with
  | 0x01, [] => cmdReadStatus s
  | 0x02, [a, b] => cmdAckAttention (wordOf a b) s
  | 0x03, [a, b] => cmdSetMask (wordOf a b) s
  | 0x04, [] => cmdReadReaderCounters s
  | 0x08, [m] => cmdSetMode m s
  | 0x09, [] => cmdHold s
  | 0x0A, [] => cmdResume s
  | 0x0B, [] => cmdSoftReset s
  | 0x10, ps =>
    match geometryRecord? ps with
    | some r => cmdWriteGeometry r s
    | none => s.refuse .unknownCommand
  | 0x11, first :: _ :: ps => cmdWriteLanes first (laneRecords ps) s
  | 0x12, [k] => cmdWriteCarrier k s
  | 0x13, [l, d] => cmdTestStroke l d s
  | 0x18, [l] => cmdOpenLane l s
  | 0x19, [l] => cmdCloseLane l s
  | 0x1A, [l, a, b] => cmdSetCapacity l (wordOf a b) s
  | 0x1B, [l] => cmdRackExchanged l s
  | 0x1C, [first, n] => cmdReadLanes first n s
  | 0x20, first :: _ :: ps => cmdWritePatterns first (patternRecords ps) s
  | 0x21, first :: _ :: ps => cmdWriteForms first ps s
  | 0x22, first :: _ :: ps => cmdWriteClasses first (classRecords ps) s
  | 0x23, first :: _ :: ps => cmdWriteRoutes first ps s
  | 0x24, [r, c, t] => cmdWriteSettings ⟨r, c, t⟩ s
  | 0x28, [first, n] => cmdReadPatterns first n s
  | 0x29, [first, n] => cmdReadForms first n s
  | 0x2A, [first, n] => cmdReadClasses first n s
  | 0x2B, [first, n] => cmdReadRoutes first n s
  | 0x2C, [] => cmdReadSettings s
  | 0x30, [a, b] => cmdReadTicket a b s
  | 0x31, [a, b, c] => cmdFindTickets a b c s
  | 0x32, [a, b, c] => cmdRedirect a b c s
  | 0x33, [a, b] => cmdPull a b s
  | 0x34, [] => cmdReadTallies s
  | 0x35, [] => cmdClearTallies s
  | 0x38, [] => cmdReadEndMonitor s
  | _, _ => s.refuse .unknownCommand

/-! ### Marked characters (R169) -/

/-- The selection a marked character makes (R169). -/
def State.select (s : State) (v : Byte) : State :=
  if v = 0 then s.setFrame .selected true
  else if v = s.sli.address.zeroExtend 8 then s.setFrame .selected false
  else s.setFrame .unselected false

/-- A marked character received without error: it cancels a reply that is due (R172), whose soft reset takes effect
first (R166), and selects or deselects the station (R169). -/
def State.lineMarked (s : State) (v : Byte) : State := s.cancelReply.select v

/-- ADDRESS_CHARACTER (R169); no character is taken while SDE is asserted (R172). -/
def execAddressCharacter (value : Byte) (s : State) : Out :=
  s.event (fun s => if s.sdeAsserted then s else s.lineMarked value)

/-! ### Data characters (R170, R172) -/

/-- How many parameter characters a command collects, given those it has: a block write's number follows from its
count character (R170). -/
def paramsNeeded (shape : FrameShape) (params : List Byte) : Nat :=
  match shape, params with
  | .fixed n, _ => n
  | .blockRead, _ => 2
  | .blockWrite size, _ :: n :: _ => 2 + n.toNat * size
  | .blockWrite _, [_] => 2
  | .blockWrite _, [] => 2

/-- A block command collects a first index and a count (R170). -/
def isBlockShape : FrameShape → Bool
  | .fixed _ => false
  | .blockRead => true
  | .blockWrite _ => true

/-- A framing refusal: the state is IGNORING and the reply is due at once (R170). -/
def State.refuseFrame (s : State) (st : Status) : State := (s.setFrame .ignoring false).replyDue (plain st)

/-- A data character in SELECTED is the command character (R170). -/
def State.commandChar (s : State) (code : Byte) : State :=
  if s.sli.broadcast then
    match code.toNat with
    | 0x09 => s.takeBroadcast cmdHold
    | 0x0A => s.takeBroadcast cmdResume
    | _ => s.setFrame .ignoring true
  else
    match frameShape code with
    | none => s.refuseFrame .unknownCommand
    | some shape =>
      if paramsNeeded shape [] = 0 then s.takeCommand (commandOf code []) else s.setFrame (.collecting code []) false

/-- The frame under assembly after its newest parameter character (R170). -/
def State.collected (s : State) (shape : FrameShape) (code : Byte) (params : List Byte) : State :=
  if isBlockShape shape = true ∧ params.length = 2 ∧ blockCountOk (params.getD 1 0).toNat = false then
    s.refuseFrame .badLength
  else if params.length < paramsNeeded shape params then s.setFrame (.collecting code params) false
  else s.takeCommand (commandOf code params)

/-- A data character in COLLECTING is a parameter (R170). -/
def State.paramChar (s : State) (code : Byte) (params : List Byte) (v : Byte) : State :=
  match frameShape code with
  | none => s.setFrame .ignoring false
  | some shape => s.collected shape code (params ++ [v])

/-- A data character received without error. In the wait for quiet it restarts the quiet count (R172); in UNSELECTED
and IGNORING it is passed over (R169). -/
def State.lineData (s : State) (v : Byte) : State :=
  let s := { s with sli := { s.sli with quietTimer := 0 } }
  match s.sli.frame with
  | .unselected => s
  | .ignoring => s
  | .selected => s.commandChar v
  | .collecting code params => s.paramChar code params v

/-- A data character on SRX, under whichever row it comes (log 7); none is taken while SDE is asserted (R172). -/
def State.dataRow (s : State) (v : Byte) : Out := s.event (fun s => if s.sdeAsserted then s else s.lineData v)

/-- COMMAND_CHARACTER (R170). -/
def execCommandCharacter (code : Byte) (s : State) : Out := s.dataRow code

/-- UNKNOWN_COMMAND (R170). -/
def execUnknownCommand (code : Byte) (s : State) : Out := s.dataRow code

/-- PARAMETER_CHARACTER (R170). -/
def execParameterCharacter (value : Byte) (s : State) : Out := s.dataRow value

/-- BAD_LENGTH (R170). -/
def execBadLength (count : Byte) (s : State) : Out := s.dataRow count

/-- DATA_CHARACTER_DURING_WAIT (R172). -/
def execDataCharacterDuringWait (value : Byte) (s : State) : Out := s.dataRow value

/-! ### Errors (R171) -/

/-- A character with a parity or framing error: counted, the frame abandoned, the station UNSELECTED, a reply due
cancelled (R171, R166). -/
def State.lineInError (s : State) : State :=
  ({ s with sli := { s.sli with lineErrors := satInc counterTop s.sli.lineErrors } }.setFrame .unselected
    false).cancelReply

/-- A character on SRX checked as R49 checks (R168). -/
def State.lineReceives (s : State) (c : LineChar) : State :=
  if c.good then (if c.marked then s.lineMarked c.value else s.lineData c.value) else s.lineInError

/-- LINE_ERROR (R171); a character that is in fact without error acts as what it is (log 7). -/
def execLineError (c : LineChar) (s : State) : Out := s.event (fun s => if s.sdeAsserted then s else s.lineReceives c)

end Sys2Proof.Machine
end

