-- ==== Sys2Proof/Machine/Replies.lean ====
section
/-! DEFINITION. The sending of replies (section 11.3): the quiet before a reply, its characters, its begin and its end. -/

namespace Sys2Proof.Machine

/-- The quiet SRX needs before a reply: two character times (R172). -/
def State.quietLimit (s : State) : Nat := 2 * s.lineCharTime

/-- The characters of a reply as sent: the marked header 40h + address, the status, the data (R172). -/
def State.replyLine (s : State) (r : Reply) : List LineChar :=
  lineCharOf true (0x40 + s.sli.address.zeroExtend 8) :: (r.status.code :: r.data).map (lineCharOf false)

/-- The time the characters of a reply take, back to back (R168, R172). -/
def State.replyTime (s : State) (r : Reply) : Nat := (r.data.length + 2) * s.lineCharTime

/-- The level of STX: the bit of the reply in transmission, or the idle level, taken as high (R168, log 22). -/
def State.stxLevel (s : State) : Bool :=
  match s.sli.sending with
  | none => true
  | some r => ((s.replyLine r).flatMap LineChar.levels).getD (s.sli.sendTimer / lineBitTime s.sli.baud) true

/-- After the quiet, SDE is asserted and the reply begins (R172). The quiet count, which no longer runs, holds 0 (DESIGN
CHOICE, log 33). -/
def State.beginReply (s : State) : State :=
  { s with sli := { s.sli with reply := none, quietTimer := 0, sending := s.sli.reply, sendTimer := 0 } }

/-- The stop bit of a reply's last character has been sent: SDE is released (R172), and the reply to SOFT RESET brings
the reset (R166). The time of a reply that is sent holds 0 (DESIGN CHOICE, log 33). -/
def State.endReply (s : State) : State :=
  match s.sli.sending with
  | none => s
  | some r =>
    let s := { s with sli := { s.sli with sending := none, sendTimer := 0 } }
    if r.softReset then s.softReset else s

/-- The gap timer has passed 10 ms in SELECTED or COLLECTING: the frame is abandoned, with no reply and no counter
(R171). -/
def State.abandonFrame (s : State) : State := s.setFrame .ignoring s.sli.broadcast

end Sys2Proof.Machine
end

