-- ==== Sys2Proof/Machine/Own.lean ====
section
/-! DEFINITION. The part's own course: its timers, the events its own counts and times bring about, and what happens
while time passes with no command taken (logs 2, 3 and 5). -/

namespace Sys2Proof.Machine

/-! ### The timers -/

/-- The timers whose end is an event of the part. -/
inductive OwnTimer where
  | stop
  | triggerSent
  | readerGap
  | pull (lane : Lane)
  | cap (lane : Lane)
  | recovery (lane : Lane)
  | testEnd (lane : Lane)
  | frameGap
  | quiet
  | replySent
  deriving DecidableEq, Repr

/-- A report is under assembly. -/
def State.assembling (s : State) : Bool :=
  match s.rli.assembly with
  | .waitHeader => false
  | .waitPattern _ => true
  | .waitForm _ _ => true
  | .waitStatus _ _ _ => true

/-- A frame is under assembly. -/
def State.framing (s : State) : Bool :=
  match s.sli.frame with
  | .selected => true
  | .collecting _ _ => true
  | .unselected => false
  | .ignoring => false

/-- The µs until a timer stands at its limit; none while it does not run. -/
def State.timeLeft (s : State) : OwnTimer → Option Nat
  | .stop => if s.bcu.motion = .moving then some (s.stopLimit - s.bcu.stopTimer) else none
  | .triggerSent => s.rli.sendTimer.map (readerCharTime - ·)
  | .readerGap => if s.assembling then some (readerGapLimit - s.rli.gapTimer) else none
  | .pull l => if (s.drive l).state = .pull then some (s.drive l).pullLeft else none
  | .cap l => if (s.drive l).driven then some ((s.drive l).capTime - (s.drive l).onTime) else none
  | .recovery l => if (s.drive l).state = .recover then some (s.drive l).recoveryLeft else none
  | .testEnd l => (s.drive l).testEnd?.map (· - (s.drive l).onTime)
  | .frameGap => if s.framing then some (frameGapLimit + 1 - s.sli.gapTimer) else none
  | .quiet => if s.sli.reply.isSome then some (s.quietLimit - s.sli.quietTimer) else none
  | .replySent => s.sli.sending.map (fun r => s.replyTime r - s.sli.sendTimer)

/-- What the end of a timer does (R8, R48, R51, R136 to R138, R141, R171, R172). -/
def State.takeTimer (s : State) : OwnTimer → State
  | .stop => s.stopBelt
  | .triggerSent => s.endTrigger
  | .readerGap => s.abandonReport
  | .pull l => s.leavePull l
  | .cap l => s.capStroke l
  | .recovery l => s.endRecovery l
  | .testEnd l => s.takeTestEnd l
  | .frameGap => s.abandonFrame
  | .quiet => s.beginReply
  | .replySent => s.endReply

/-- A timer that runs and stands at its limit ends; any other does nothing (log 4). -/
def State.onTimer (s : State) (t : OwnTimer) : State := if s.timeLeft t = some 0 then s.takeTimer t else s

/-- Every timer of the part. -/
def allTimers : List OwnTimer :=
  [.stop, .triggerSent, .readerGap]
    ++ allLanes.flatMap (fun l => [.pull l, .cap l, .recovery l, .testEnd l])
    ++ [.frameGap, .quiet, .replySent]

/-! ### The own events -/

/-- An event that the part's own counts and times bring about. -/
inductive OwnEvent where
  | reach (r : CountReach)
  | triggerSend
  | timer (t : OwnTimer)
  deriving DecidableEq, Repr

/-- One own event is taken. -/
def State.takeOwn (s : State) : OwnEvent → State
  | .reach r => s.takeReach r
  | .triggerSend => s.beginTrigger
  | .timer t => s.onTimer t

/-- The row of the table that a reach of the belt count is. -/
def CountReach.row : CountReach → Instr
  | .capture => .p8Capture
  | .holdLimit => .holdLimitReached
  | .readWindow slot => .readWindowExpiry slot
  | .fire l => .fireDue l
  | .strokeEnd l => .strokeEndCountReached l
  | .confirmClose slot => .confirmWindowClose slot
  | .endWindow slot => .endWindowExpiry slot

/-- The row of the table that the end of a timer is. -/
def OwnTimer.row : OwnTimer → Instr
  | .stop => .stopTimeExpiry
  | .triggerSent => .triggerSent
  | .readerGap => .readerGapTimeout
  | .pull l => .pullTimeElapsed l
  | .cap l => .onTimeCap l
  | .recovery l => .recoveryTimeElapsed l
  | .testEnd l => .testEnd l
  | .frameGap => .frameGapTimeout
  | .quiet => .replyStart
  | .replySent => .replyEnd

/-- The row of the table that an own event is. -/
def OwnEvent.row : OwnEvent → Instr
  | .reach r => r.row
  | .triggerSend => .triggerSend
  | .timer t => t.row

/-- The own events that have come about and have not been taken: reaches of the present belt count (R5), a trigger that
can begin (R48), and timers at their limits. Taking one ends its condition. -/
def State.ownEvents (s : State) : List OwnEvent :=
  s.countDue.map .reach
    ++ (if s.rli.sendTimer.isNone && !s.rli.fifo.isEmpty then [.triggerSend] else [])
    ++ (allTimers.filter (fun t => s.timeLeft t == some 0)).map .timer

/-- The rows that the own events are. -/
def State.ownDue (s : State) : List Instr := s.ownEvents.map OwnEvent.row

/-- The own event taken next, and the state in which it is taken: none when no event is due; one of several in an order
the manual leaves free (log 3). -/
def State.nextOwn (s : State) : Option (OwnEvent × State) :=
  match s.ownEvents with
  | [] => none
  | [e] => some (e, s)
  | e :: f :: rest => some (chosen s.choices e (f :: rest), { s with choices := s.choices + 1 })

/-! ### The passing of time between commands -/

/-- The clocks of XTAL until `us` more ticks of the time base have come. -/
def State.clocksFor (s : State) (us : Nat) : Nat := if us = 0 then 0 else us * 16 - s.xtal

/-- The clocks until the first running timer stands at its limit, at least one; none while no timer runs. -/
def State.clocksToDue (s : State) : Option Nat :=
  ((allTimers.filterMap s.timeLeft).min?).map (fun us => max 1 (s.clocksFor us))

/-- Of `n` clocks, those that pass before a timer stands at its limit. -/
def State.stretch (s : State) (n : Nat) : Nat :=
  match s.clocksToDue with
  | some c => min c n
  | none => n

/-- `n` clocks pass as they pass with no command waiting: each own event is taken at its moment, before any further
clock (log 5). The first argument bounds the rounds. -/
def State.passClocks : Nat → Nat → State → State
  | _, 0, s => s
  | 0, n + 1, s => s.elapse (n + 1)
  | k + 1, n + 1, s =>
    match s.nextOwn with
    | some (e, t) => (t.takeOwn e).passClocks k (n + 1)
    | none => (s.elapse (s.stretch (n + 1))).passClocks k (n + 1 - s.stretch (n + 1))

/-- The rounds that suffice while no command is taken: a ticket or a stroke brings about a few events and then ends, and
each is one round to take and one to wait for (DEDUCED, log 5). -/
def State.rounds (s : State) : Nat := 32 * s.tt.belt.length + 512

/-- The part runs on for `n` clocks. -/
def State.runOn (s : State) (n : Nat) : State := s.passClocks s.rounds n

/-- The part runs on until a timer stands at its limit, and the timer ends. -/
def State.awaitTimer (s : State) (t : OwnTimer) : State :=
  match s.timeLeft t with
  | none => s
  | some us => (s.runOn (s.clocksFor us)).onTimer t

end Sys2Proof.Machine
end

