-- ==== Sys2Proof/Machine/Timers.lean ====
section
/-! DEFINITION. The rows of the table that say that a time has come: the part runs on to that moment, taking its own
events on the way, and then the event is taken (log 5). A row whose timer does not run changes nothing (log 4). -/

namespace Sys2Proof.Machine

/-- STOP_TIME_EXPIRY (R8). -/
def execStopTimeExpiry (s : State) : Out := s.event (fun s => s.awaitTimer .stop)

/-- TRIGGER_SENT (R48). -/
def execTriggerSent (s : State) : Out := s.event (fun s => s.awaitTimer .triggerSent)

/-- READER_GAP_TIMEOUT (R51). -/
def execReaderGapTimeout (s : State) : Out := s.event (fun s => s.awaitTimer .readerGap)

/-- PULL_TIME_ELAPSED (R136). -/
def execPullTimeElapsed (lane : Lane) (s : State) : Out := s.event (fun s => s.awaitTimer (.pull lane))

/-- ON_TIME_CAP (R138). -/
def execOnTimeCap (lane : Lane) (s : State) : Out := s.event (fun s => s.awaitTimer (.cap lane))

/-- RECOVERY_TIME_ELAPSED (R137). -/
def execRecoveryTimeElapsed (lane : Lane) (s : State) : Out := s.event (fun s => s.awaitTimer (.recovery lane))

/-- TEST_END (R141). -/
def execTestEnd (lane : Lane) (s : State) : Out := s.event (fun s => s.awaitTimer (.testEnd lane))

/-- FRAME_GAP_TIMEOUT (R171). -/
def execFrameGapTimeout (s : State) : Out := s.event (fun s => s.awaitTimer .frameGap)

/-- REPLY_START (R172). -/
def execReplyStart (s : State) : Out := s.event (fun s => s.awaitTimer .quiet)

/-- REPLY_END (R172). -/
def execReplyEnd (s : State) : Out := s.event (fun s => s.awaitTimer .replySent)

/-- The reply to SOFT RESET comes to its end, and the reset takes effect (R166); with no such reply outstanding there is
no reset (log 4). -/
def State.softResetComes (s : State) : State :=
  match s.sli.reply, s.sli.sending with
  | some r, _ => if r.softReset then (s.awaitTimer .quiet).awaitTimer .replySent else s
  | none, some r => if r.softReset then s.awaitTimer .replySent else s
  | none, none => s

/-- SOFT_RESET_EFFECT (R166). -/
def execSoftResetEffect (s : State) : Out := s.event State.softResetComes

/-- CARRIER_PERIOD_START (R131): the present period runs to its end and the next begins. A pending select comes into
force and every drive in HOLD reads its duty (R134). -/
def execCarrierPeriodStart (s : State) : Out :=
  s.event (fun s => s.runOn (carrierPeriod s.carrier.select - s.carrier.phase))

/-- The active portion of the present carrier period ends for a drive in HOLD (R134). A duty whose active portion is
the whole period has no such end. -/
def State.onActivePortionEnd (s : State) (l : Lane) : State :=
  let portion := activePortion (s.drive l).duty s.carrier.select
  if (s.drive l).state = .hold ∧ s.carrier.phase < portion ∧ portion < carrierPeriod s.carrier.select then
    s.runOn (portion - s.carrier.phase)
  else s

/-- ACTIVE_PORTION_END (R134). -/
def execActivePortionEnd (lane : Lane) (s : State) : Out := s.event (fun s => s.onActivePortionEnd lane)

end Sys2Proof.Machine
end

