-- ==== Sys2Proof/Machine/Dispatch.lean ====
section
/-! DEFINITION. The meaning of every command: one arm per row of spec/opcode_table.json. -/

namespace Sys2Proof.Machine

def exec (i : Instr) (s : State) : Host.Outcome State Fault Refusal :=
  match i with
  | .powerOnReset => Sys2Proof.Machine.execPowerOnReset s
  | .pinReset => Sys2Proof.Machine.execPinReset s
  | .releaseOfResetN pins => Sys2Proof.Machine.execReleaseOfResetN pins s
  | .encoderPulse => Sys2Proof.Machine.execEncoderPulse s
  | .p8Capture => Sys2Proof.Machine.execP8Capture s
  | .stopTimeExpiry => Sys2Proof.Machine.execStopTimeExpiry s
  | .inductionLeadingEdge => Sys2Proof.Machine.execInductionLeadingEdge s
  | .inductionTrailingEdge => Sys2Proof.Machine.execInductionTrailingEdge s
  | .overlength => Sys2Proof.Machine.execOverlength s
  | .holdLimitReached => Sys2Proof.Machine.execHoldLimitReached s
  | .triggerSend => Sys2Proof.Machine.execTriggerSend s
  | .triggerSent => Sys2Proof.Machine.execTriggerSent s
  | .readerCharacter c => Sys2Proof.Machine.execReaderCharacter c s
  | .readerGapTimeout => Sys2Proof.Machine.execReaderGapTimeout s
  | .readWindowExpiry slot => Sys2Proof.Machine.execReadWindowExpiry slot s
  | .fireDue lane => Sys2Proof.Machine.execFireDue lane s
  | .strokeEndCountReached lane => Sys2Proof.Machine.execStrokeEndCountReached lane s
  | .pullTimeElapsed lane => Sys2Proof.Machine.execPullTimeElapsed lane s
  | .onTimeCap lane => Sys2Proof.Machine.execOnTimeCap lane s
  | .recoveryTimeElapsed lane => Sys2Proof.Machine.execRecoveryTimeElapsed lane s
  | .testEnd lane => Sys2Proof.Machine.execTestEnd lane s
  | .carrierPeriodStart => Sys2Proof.Machine.execCarrierPeriodStart s
  | .laneEyeLeadingEdge lane => Sys2Proof.Machine.execLaneEyeLeadingEdge lane s
  | .laneEyeTrailingEdge lane => Sys2Proof.Machine.execLaneEyeTrailingEdge lane s
  | .confirmWindowClose slot => Sys2Proof.Machine.execConfirmWindowClose slot s
  | .endEyeLeadingEdge => Sys2Proof.Machine.execEndEyeLeadingEdge s
  | .endEyeTrailingEdge => Sys2Proof.Machine.execEndEyeTrailingEdge s
  | .endWindowExpiry slot => Sys2Proof.Machine.execEndWindowExpiry slot s
  | .guardOpening => Sys2Proof.Machine.execGuardOpening s
  | .guardClosing => Sys2Proof.Machine.execGuardClosing s
  | .addressCharacter value => Sys2Proof.Machine.execAddressCharacter value s
  | .unknownCommand code => Sys2Proof.Machine.execUnknownCommand code s
  | .lineError c => Sys2Proof.Machine.execLineError c s
  | .frameGapTimeout => Sys2Proof.Machine.execFrameGapTimeout s
  | .replyStart => Sys2Proof.Machine.execReplyStart s
  | .replyEnd => Sys2Proof.Machine.execReplyEnd s
  | .softResetEffect => Sys2Proof.Machine.execSoftResetEffect s
  | .readStatus => Sys2Proof.Machine.execReadStatus s
  | .ackAttention flags => Sys2Proof.Machine.execAckAttention flags s
  | .setMask mask => Sys2Proof.Machine.execSetMask mask s
  | .readReaderCounters => Sys2Proof.Machine.execReadReaderCounters s
  | .setMode code => Sys2Proof.Machine.execSetMode code s
  | .hold broadcast => Sys2Proof.Machine.execHold broadcast s
  | .resume broadcast => Sys2Proof.Machine.execResume broadcast s
  | .softReset => Sys2Proof.Machine.execSoftReset s
  | .writeGeometry r => Sys2Proof.Machine.execWriteGeometry r s
  | .writeLanes first records => Sys2Proof.Machine.execWriteLanes first records s
  | .writeCarrier select => Sys2Proof.Machine.execWriteCarrier select s
  | .testStroke lane duration => Sys2Proof.Machine.execTestStroke lane duration s
  | .openLane lane => Sys2Proof.Machine.execOpenLane lane s
  | .closeLane lane => Sys2Proof.Machine.execCloseLane lane s
  | .setCapacity lane capacity => Sys2Proof.Machine.execSetCapacity lane capacity s
  | .rackExchanged lane => Sys2Proof.Machine.execRackExchanged lane s
  | .readLanes first count => Sys2Proof.Machine.execReadLanes first count s
  | .writePatterns first records => Sys2Proof.Machine.execWritePatterns first records s
  | .writeForms first records => Sys2Proof.Machine.execWriteForms first records s
  | .writeClasses first records => Sys2Proof.Machine.execWriteClasses first records s
  | .writeRoutes first records => Sys2Proof.Machine.execWriteRoutes first records s
  | .writeCatalogueSettings r => Sys2Proof.Machine.execWriteCatalogueSettings r s
  | .readPatterns first count => Sys2Proof.Machine.execReadPatterns first count s
  | .readForms first count => Sys2Proof.Machine.execReadForms first count s
  | .readClasses first count => Sys2Proof.Machine.execReadClasses first count s
  | .readRoutes first count => Sys2Proof.Machine.execReadRoutes first count s
  | .readCatalogueSettings => Sys2Proof.Machine.execReadCatalogueSettings s
  | .readTicket slot generation => Sys2Proof.Machine.execReadTicket slot generation s
  | .findTickets scope lane skip => Sys2Proof.Machine.execFindTickets scope lane skip s
  | .redirect slot generation lane => Sys2Proof.Machine.execRedirect slot generation lane s
  | .pull slot generation => Sys2Proof.Machine.execPull slot generation s
  | .readTallies => Sys2Proof.Machine.execReadTallies s
  | .clearTallies => Sys2Proof.Machine.execClearTallies s
  | .readEndMonitor => Sys2Proof.Machine.execReadEndMonitor s
  | .commandCharacter code => Sys2Proof.Machine.execCommandCharacter code s
  | .parameterCharacter value => Sys2Proof.Machine.execParameterCharacter value s
  | .badLength count => Sys2Proof.Machine.execBadLength count s
  | .dataCharacterDuringWait value => Sys2Proof.Machine.execDataCharacterDuringWait value s
  | .activePortionEnd lane => Sys2Proof.Machine.execActivePortionEnd lane s

end Sys2Proof.Machine
end

