-- ==== Sys2Proof/Machine/Step.lean ====
section
/-! DEFINITION. One step of the machine: the command at the front of the queue, or, with none waiting, the part's own
course. -/

namespace Sys2Proof.Machine

/-- With no command waiting, an own event that is due is taken as its row; with none due, and through a reset, one clock
of XTAL passes (DESIGN CHOICE, log 2). -/
def State.idle (s : State) : Host.Outcome State Fault Refusal :=
  match s.inReset, s.nextOwn with
  | none, some (e, t) => exec e.row t
  | none, none => .next (s.elapse 1)
  | some _, _ => .next (s.elapse 1)

/-- A step takes the command at the front of the queue, with the queue's rest (log 1). -/
def step (s : State) : Host.Outcome State Fault Refusal :=
  match s.pending with
  | [] => s.idle
  | i :: rest => exec i { s with pending := rest }

/-- The command a word spells put at the front of the queue. No word spells one (log 23). -/
def State.withFetchWord (s : State) (nbits w : Nat) : State :=
  match decodeTableWord nbits w with
  | some i => { s with pending := i :: s.pending }
  | none => s

end Sys2Proof.Machine
end

