-- ==== Sys2Proof/Safety.lean ====
section
/-! DEFINITION. What a sound state of the part is, in the terms the statements use. Each predicate is kept by every
step; none is assumed by the machine. -/

namespace Sys2Proof.Safety

open Sys2Proof.Machine

/-- A drive keeps its diverter's output from rest: it is in PULL or HOLD (Table 8-2). -/
def Driven (s : State) (l : Lane) : Prop := (s.drive l).state = .pull ∨ (s.drive l).state = .hold

/-- A drive runs a test stroke (R140). -/
def InTest (s : State) (l : Lane) : Prop := ∃ e, (s.drive l).kind = .test e

/-- The mode is HOLD, held from either mode. -/
def InHold (s : State) : Prop := s.mode = .hold .run ∨ s.mode = .hold .drain

/-- The diverters are still wherever R139, R141, R160 and R163 want them so: with the guard open the mode is SETUP or
HOLD, in HOLD and with the guard open no drive is in PULL or HOLD, in SETUP only test strokes run, and through a power-on
or pin reset the mode is SETUP and nothing is driven. -/
structure DivertersStill (s : State) : Prop where
  openGuardStops : s.mc.guard = .opened → s.mode = .setup ∨ InHold s
  stillInHold : InHold s → ∀ l, ¬ Driven s l
  stillWhenOpen : s.mc.guard = .opened → ∀ l, ¬ Driven s l
  onlyTestsInSetup : s.mode = .setup → ∀ l, Driven s l → InTest s l
  stillInReset : s.inReset ≠ none → s.mode = .setup ∧ ∀ l, ¬ Driven s l

/-- Each slot holds at most one live ticket (section 2.1). -/
def SlotsDistinct (s : State) : Prop := (s.tt.belt.map Ticket.slot).Nodup

/-- The commitments that live tickets hold at a lane (R27). -/
def commitmentsAt (s : State) (l : Lane) : Nat := s.tt.belt.countP (fun t => t.commitment == some l)

/-- Every lane's committed count is the number of commitments that live tickets hold there (R27, R83, R84). -/
structure CommitmentsKept (s : State) : Prop where
  slots : SlotsDistinct s
  counts : ∀ l, (s.lane l).committed = commitmentsAt s l

/-- What R98 and R99 to R103 leave of a lane record: a lane that is not CLOSED is installed, an OPEN lane has room, a FULL
lane has none, and the fill lies within its range. -/
structure LaneSound (r : LaneRecord) : Prop where
  installed : r.state ≠ .closed → r.distance ≠ 0
  openHasRoom : r.state = .opened → r.fill < r.capacity
  fullHasNone : r.state = .full → r.capacity ≤ r.fill
  fillRange : r.fill ≤ 999

/-- Every lane record is sound. -/
def LanesSound (s : State) : Prop := ∀ l, LaneSound (s.lane l)

/-- In SETUP no ticket is live (R158, R162, R166). -/
def SetupEmpty (s : State) : Prop := s.mode = .setup → s.tt.belt = []

/-- A lane's route queue holds tickets only while the lane is OPEN (section 6.2). -/
structure QueuesOnlyWhileOpen (s : State) : Prop where
  slots : SlotsDistinct s
  setupEmpty : SetupEmpty s
  queues : ∀ l, (s.lane l).state ≠ .opened → s.routeQueue l = []

/-- The ticket under the induction eye is live (R29, R42). -/
def UnderEyeLive (s : State) : Prop := ∀ k, s.ind.underEye = some k → ∃ t ∈ s.tt.belt, t.slot = k

/-- The Belt Count Unit's items lie within their ranges (R1, R7, section 1.3). -/
structure BeltInRange (s : State) : Prop where
  p8Low : 1 ≤ s.bcu.p8
  p8High : s.bcu.p8 ≤ 65535
  block : s.bcu.blockCount ≤ 7
  timer : s.bcu.blockTimer ≤ 65535
  captured : ∀ v, s.bcu.capture = some v → v ≤ 65535
  remainder : s.bcu.remainder < s.pulsesPerCount

/-- The counters lie within their widths (R18, R30, R31, R45, R48, R52, R57, R106, R110, R148, R171). -/
structure CountersInRange (s : State) : Prop where
  untracked : s.tt.untracked ≤ 65535
  tallies : ∀ i : Fin 63, s.tt.tallies.get i ≤ 65535
  runOffReasons : ∀ i : Fin 7, s.tt.runOffReasons.get i ≤ 65535
  blockedLength : s.ind.blockedLength ≤ 1023
  streak : s.ind.noReadStreak ≤ 255
  triggers : s.rli.fifo.length ≤ 4
  readerErrors : s.rli.errors ≤ 65535
  strayReports : s.rli.strays ≤ 65535
  laneStrays : ∀ l, (s.lane l).strays ≤ 65535
  failures : ∀ l, (s.lane l).failures ≤ 15
  endStrays : s.em.strays ≤ 65535
  lineErrors : s.sli.lineErrors ≤ 65535

/-! ### The conditions under which commands are taken -/

/-- No power-on or pin reset is in progress (R165). -/
def Running (s : State) : Prop := s.inReset = none

/-- The part runs in one of the three modes in which eye edges act (R41, R105, R143). -/
def Attending (s : State) : Prop := s.inReset = none ∧ s.mode ≠ .setup

/-- The station can take a frame: it runs, it is sending nothing, it has a strap address of its own, and no reply is due
(R169, R172). -/
structure Listening (s : State) : Prop where
  running : s.inReset = none
  silent : s.sli.sending = none
  addressed : s.sli.address ≠ 0
  nothingDue : s.sli.reply = none

/-- No own event of the part is due, and none falls due within `n` clocks but at their end: time alone passes (log 5). -/
structure QuietFor (s : State) (n : Nat) : Prop where
  nothingDue : s.ownEvents = []
  nothingSooner : ∀ c, s.clocksToDue = some c → n ≤ c

/-- The state with a reply due, after a frame has been taken or refused (R170, R172): the frame state is IGNORING and the
quiet count starts. The zero of the stopped gap timer is the model's (log 33). -/
def answered (s : State) (status : Status) (data : List Byte) : State :=
  { s with sli := { s.sli with
    frame := .ignoring, broadcast := false, gapTimer := 0
    reply := some { status := status, data := data }, quietTimer := 0 } }

/-- The state after a broadcast frame: the frame state is IGNORING and no reply is due, so the quiet count stands at 0
(R170, R172; log 33). -/
def unanswered (s : State) : State :=
  { s with sli := { s.sli with frame := .ignoring, broadcast := false, gapTimer := 0, quietTimer := 0 } }

/-- A ticket is alone in the route queue of a lane and armed there, with its fire planned and not deferred (R114). -/
structure ArmedAlone (s : State) (l : Lane) (a : Armed) (t : Ticket) : Prop where
  slots : SlotsDistinct s
  channel : (s.channel l).armed = some a
  notDeferred : a.lateLimit = none
  queue : s.routeQueue l = [t]
  slot : a.slot = t.slot
  state : t.state = .armed

/-- The same with its fire deferred to a late limit (R122). -/
structure DeferredAlone (s : State) (l : Lane) (a : Armed) (t : Ticket) (limit : Count) : Prop where
  slots : SlotsDistinct s
  channel : (s.channel l).armed = some a
  deferred : a.lateLimit = some limit
  queue : s.routeQueue l = [t]
  slot : a.slot = t.slot
  state : t.state = .armed

/-- A ticket is armed at the head of a lane's route queue with one ROUTED ticket behind it (R24, R117). -/
structure ArmedBefore (s : State) (l : Lane) (a : Armed) (t next : Ticket) : Prop where
  slots : SlotsDistinct s
  channel : (s.channel l).armed = some a
  notDeferred : a.lateLimit = none
  queue : s.routeQueue l = [t, next]
  slot : a.slot = t.slot
  state : t.state = .armed
  nextState : next.state = .routed

/-- The planned fire count that arming gives a ticket now (R115, R117). -/
def plannedNow (s : State) (l : Lane) (t : Ticket) : Count := t.nominal.getD 0 - BitVec.ofNat 16 (s.lead l)

/-- A drive in RECOVER with a recovery time to run (R137); the numbers of its stopped timers are the model's (log 33). -/
def recovering (time : Nat) (kind : StrokeKind) : Drive :=
  { state := .recover, onTime := 0, pullLeft := 0, recoveryLeft := time, endHeld := false, kind := kind, maxOn := 0,
    duty := 0 }

/-- A drive at the beginning of a stroke (R135); a pull time of 0 has elapsed at once (R136). The zeros
of what is not running are the model's (log 33). -/
def begun (r : LaneRecord) (kind : StrokeKind) : Drive :=
  { state := if r.pullTime = 0 then .hold else .pull, onTime := 0, pullLeft := r.pullTime, recoveryLeft := 0,
    endHeld := false, kind := kind, maxOn := r.maxOnTime, duty := if r.pullTime = 0 then r.holdDuty else 0 }

/-- The record of a ticket whose fire is taken now (R120, R108). -/
def strokingNow (s : State) (l : Lane) (t : Ticket) : Ticket :=
  { t with
    state := .stroking
    fireCount := some s.bcu.count
    closeCount := some (s.bcu.count + BitVec.ofNat 16 (s.lane l).confirmSpan) }

/-- The record of a ticket whose fire is taken late now: the same with LATE marked first (R119). -/
def strokingLate (s : State) (l : Lane) (t : Ticket) : Ticket :=
  { strokingNow s l t with marks := { t.marks with late := true } }

/-- The bounds of a ticket's end window (R11, R144). -/
def endBoundsOf (s : State) (t : Ticket) : Count × Count :=
  (t.induction + BitVec.ofNat 16 s.geo.endDistance - BitVec.ofNat 16 s.geo.endTolerance,
    t.induction + BitVec.ofNat 16 s.geo.endDistance + BitVec.ofNat 16 s.geo.endTolerance)

/-- The record of a ticket sent to run-off with a reason (R82, R88, R124, R144). -/
def ranOff (s : State) (r : Reason) (t : Ticket) : Ticket :=
  { t with
    state := .runningOff, dest := some .runOff, reason := some r, joined := false, nominal := none, span := none
    endBounds := some (endBoundsOf s t) }

/-- The stroke span of a ticket of a class (R63, R81). -/
def spanOf (s : State) (t : Ticket) (c : WareClass) : Nat :=
  min (max (t.length.getD 0 + (s.classRecord c).sweep) (s.classRecord c).minStroke) 1023

/-- The record of a pending ticket resolved unread to run-off at once: class and reason of a start at residue lane 0
(R77, R82). -/
def unreadOff (s : State) (t : Ticket) : Ticket :=
  { ranOff s .unread t with tag := none, windowEnd := none, outlet := none, cls := some s.cat.defaultClass, hops := 0 }

/-- The gap from one ticket to the next is below the guard gap of the earlier one's class (R86). -/
def TooClose (s : State) (x y : Ticket) : Prop :=
  ∃ c, x.cls = some c ∧ max 0 (signedDiff (x.induction + BitVec.ofNat 16 (x.length.getD 0)) y.induction) <
    ((s.classRecord c).guardGap : Int)

/-- A ticket in a state in which it may be redirected (R37): ROUTED, RUNNING_OFF, or ARMED with no deferred fire. -/
def Redirectable (s : State) (t : Ticket) : Prop :=
  t.state = .routed ∨ t.state = .runningOff ∨
    (t.state = .armed ∧ ∀ l a, t.dest = some (.lane l) → (s.channel l).armed = some a → a.slot = t.slot →
      a.lateLimit = none)

/-- Table 5-1 for a ticket whose read of pattern `p` and form `f` is usable: outlet, class, where the walk starts, and
the start reason (cases 1, 2 and 4 to 7 of R77). -/
inductive StartsAt (s : State) (t : Ticket) (p f : Byte) : Option Outlet → WareClass → Dest → Reason → Prop where
  | overlengthOwned (o : Outlet) : t.overlength = true →
      s.cat.patterns.get p.toFin = .active o ∨ s.cat.patterns.get p.toFin = .suspended o →
      StartsAt s t p f (some o) s.cat.defaultClass .runOff .overlength
  | overlengthUnowned : t.overlength = true → s.cat.patterns.get p.toFin = .unused →
      StartsAt s t p f none s.cat.defaultClass .runOff .overlength
  | draining : t.overlength = false → s.mode = .drain → StartsAt s t p f none s.cat.defaultClass .runOff .draining
  | unused : t.overlength = false → s.mode ≠ .drain → s.cat.patterns.get p.toFin = .unused →
      StartsAt s t p f none s.cat.defaultClass s.cat.residueLane .unknown
  | suspended (o : Outlet) : t.overlength = false → s.mode ≠ .drain → s.cat.patterns.get p.toFin = .suspended o →
      StartsAt s t p f (some o) ((s.formClass f).getD s.cat.defaultClass) s.cat.residueLane .suspended
  | unknownForm (o : Outlet) : t.overlength = false → s.mode ≠ .drain → s.cat.patterns.get p.toFin = .active o →
      s.formClass f = none → StartsAt s t p f (some o) s.cat.defaultClass s.cat.residueLane .unknown
  | routed (o : Outlet) (c : WareClass) : t.overlength = false → s.mode ≠ .drain →
      s.cat.patterns.get p.toFin = .active o → s.formClass f = some c →
      StartsAt s t p f (some o) c (s.cat.routes.get (routeIndex o c)) .routed

/-- The record of a pending ticket whose report was a good read, after its resolution to run-off with a reason (R54, R68,
R82). -/
def readOff (s : State) (t : Ticket) (p f status : Byte) (o : Option Outlet) (c : WareClass) (r : Reason) : Ticket :=
  { ranOff s r t with
    tag := none, windowEnd := none, quality := some (status.truncate 4), ware := some (p, f), outlet := o
    cls := some c, hops := 0 }

/-- The lane that so many overflow links lead to from a lane (R80). -/
def linked (s : State) : Nat → Lane → Option Lane
  | 0, l => some l
  | k + 1, l =>
    match (s.lane l).overflow with
    | .runOff => none
    | .lane m => linked s k m

/-- The tallies after every live ticket has been retired FLUSHED: column 6 has risen in each row by the row's tickets, and
the other columns stand (R30, R32). -/
def FlushTallied (s t : State) : Prop :=
  (∀ i : Fin 63, i.val % 7 ≠ 6 → t.tt.tallies.get i = s.tt.tallies.get i) ∧
  (∀ (i : Fin 63) (n : Nat), i.val % 7 = 6 →
    n = s.tt.belt.countP (fun u => match u.outlet with
      | some o => o.val == i.val / 7
      | none => i.val / 7 == 8) →
    t.tt.tallies.get i = if n = 0 then s.tt.tallies.get i else min (s.tt.tallies.get i + n) 65535)

/-- A count event at the eye brings the blocked length of a ticket to 1023 (R45, R46). -/
def GrowsOverlength (s : State) (k : Slot) (t : Ticket) : Prop :=
  s.ind.underEye = some k ∧ s.ind.eye = .blocked ∧ s.ticketAt? k = some t ∧ t.overlength = false ∧
    1022 ≤ s.ind.blockedLength

/-- The characters of a record as written (Table 11-4). -/
def geometryChars (r : GeometryRecord) : List Byte :=
  [r.prescaleExponent] ++ wordChars r.endDistance ++ wordChars r.readWindow ++ [r.endTolerance, r.stopTime, r.faultLimit]

def laneWriteChars (w : LaneWrite) : List Byte :=
  wordChars w.distance ++ wordChars w.latency ++ wordChars w.confirmSpan ++ [w.overflow] ++ wordChars w.pullTime
    ++ [w.holdDuty, w.maxOnTime] ++ wordChars w.recoveryTime ++ [w.polarity]

def patternWriteChars (w : PatternWrite) : List Byte := [w.state, w.owner]

def classWriteChars (w : ClassWrite) : List Byte :=
  [w.strikeOffset, w.sweep] ++ wordChars w.minStroke ++ [w.guardGap, w.lateAllowance]

/-- The parameter characters of a block write: first index, count and records (R170, R178). -/
def blockParams {α : Type} (first : Byte) (records : List α) (chars : α → List Byte) : List Byte :=
  [first, BitVec.ofNat 8 records.length] ++ records.flatMap chars

/-- The command character and the parameter characters of every command of R174 and R175; a block write has 1 to 64
records (R170). -/
inductive FrameOf : Instr → Byte → List Byte → Prop where
  | readStatus : FrameOf .readStatus 0x01 []
  | ackAttention (w : Word) : FrameOf (.ackAttention w) 0x02 (wordChars w)
  | setMask (w : Word) : FrameOf (.setMask w) 0x03 (wordChars w)
  | readReaderCounters : FrameOf .readReaderCounters 0x04 []
  | setMode (m : Byte) : FrameOf (.setMode m) 0x08 [m]
  | hold : FrameOf (.hold false) 0x09 []
  | resume : FrameOf (.resume false) 0x0A []
  | softReset : FrameOf .softReset 0x0B []
  | writeGeometry (r : GeometryRecord) : FrameOf (.writeGeometry r) 0x10 (geometryChars r)
  | writeLanes (first : Byte) (rs : List LaneWrite) : 1 ≤ rs.length → rs.length ≤ 64 →
      FrameOf (.writeLanes first rs) 0x11 (blockParams first rs laneWriteChars)
  | writeCarrier (k : Byte) : FrameOf (.writeCarrier k) 0x12 [k]
  | testStroke (lane duration : Byte) : FrameOf (.testStroke lane duration) 0x13 [lane, duration]
  | openLane (lane : Byte) : FrameOf (.openLane lane) 0x18 [lane]
  | closeLane (lane : Byte) : FrameOf (.closeLane lane) 0x19 [lane]
  | setCapacity (lane : Byte) (w : Word) : FrameOf (.setCapacity lane w) 0x1A (lane :: wordChars w)
  | rackExchanged (lane : Byte) : FrameOf (.rackExchanged lane) 0x1B [lane]
  | readLanes (first n : Byte) : FrameOf (.readLanes first n) 0x1C [first, n]
  | writePatterns (first : Byte) (rs : List PatternWrite) : 1 ≤ rs.length → rs.length ≤ 64 →
      FrameOf (.writePatterns first rs) 0x20 (blockParams first rs patternWriteChars)
  | writeForms (first : Byte) (rs : List Byte) : 1 ≤ rs.length → rs.length ≤ 64 →
      FrameOf (.writeForms first rs) 0x21 (blockParams first rs (fun b => [b]))
  | writeClasses (first : Byte) (rs : List ClassWrite) : 1 ≤ rs.length → rs.length ≤ 64 →
      FrameOf (.writeClasses first rs) 0x22 (blockParams first rs classWriteChars)
  | writeRoutes (first : Byte) (rs : List Byte) : 1 ≤ rs.length → rs.length ≤ 64 →
      FrameOf (.writeRoutes first rs) 0x23 (blockParams first rs (fun b => [b]))
  | writeCatalogueSettings (r : SettingsWrite) :
      FrameOf (.writeCatalogueSettings r) 0x24 [r.residueLane, r.defaultClass, r.threshold]
  | readPatterns (first n : Byte) : FrameOf (.readPatterns first n) 0x28 [first, n]
  | readForms (first n : Byte) : FrameOf (.readForms first n) 0x29 [first, n]
  | readClasses (first n : Byte) : FrameOf (.readClasses first n) 0x2A [first, n]
  | readRoutes (first n : Byte) : FrameOf (.readRoutes first n) 0x2B [first, n]
  | readCatalogueSettings : FrameOf .readCatalogueSettings 0x2C []
  | readTicket (slot gen : Byte) : FrameOf (.readTicket slot gen) 0x30 [slot, gen]
  | findTickets (scope lane skip : Byte) : FrameOf (.findTickets scope lane skip) 0x31 [scope, lane, skip]
  | redirect (slot gen lane : Byte) : FrameOf (.redirect slot gen lane) 0x32 [slot, gen, lane]
  | pull (slot gen : Byte) : FrameOf (.pull slot gen) 0x33 [slot, gen]
  | readTallies : FrameOf .readTallies 0x34 []
  | clearTallies : FrameOf .clearTallies 0x35 []
  | readEndMonitor : FrameOf .readEndMonitor 0x38 []

/-- The belt list without the ticket of a slot. -/
def without (s : State) (slot : Slot) : List Ticket := s.tt.belt.filter (fun u => u.slot ≠ slot)

/-- A ticket that no other block holds: not under the induction eye, and armed by no channel. -/
def Unheld (s : State) (t : Ticket) : Prop :=
  s.ind.underEye ≠ some t.slot ∧ ∀ l a, (s.channel l).armed = some a → a.slot ≠ t.slot

/-- A retirement of the ticket does not complete a drain (R158). -/
def DrainGoesOn (s : State) (t : Ticket) : Prop := s.mode = .drain → without s t.slot ≠ []

/-- The retirement of the last live ticket in DRAIN has made the mode SETUP, which ends every fire stroke still running
(R158, R163); no other block has changed but for the tallies, the lanes, the end eye and the reply that goes with the
retirement. -/
structure DrainEnded (s t : State) : Prop where
  mode : t.mc = { s.mc with mode := .setup }
  belt : t.tt.belt = []
  strokesEnd : ∀ l, Driven s l → (s.drive l).inTest = false →
    t.drive l = (if (s.lane l).recoveryTime = 0 then Drive.reset
      else recovering (s.lane l).recoveryTime (s.drive l).kind) ∧
    t.channel l = { s.channel l with strokeEnd := none }
  othersStay : ∀ l, (¬ Driven s l ∨ (s.drive l).inTest = true) → t.drive l = s.drive l ∧ t.channel l = s.channel l
  restStays : t = { s with
    mc := t.mc, tt := t.tt, lanes := t.lanes, em := t.em, sli := t.sli, drives := t.drives, channels := t.channels }

/-- A lane is installed (R96). -/
def Installed (s : State) (l : Lane) : Prop := (s.lane l).distance ≠ 0

/-- The first installed lane (R15). -/
def FirstInstalled (s : State) (l : Lane) : Prop := Installed s l ∧ ∀ m, m < l → ¬ Installed s m

/-- The last installed lane (R15). -/
def LastInstalled (s : State) (l : Lane) : Prop := Installed s l ∧ ∀ m, l < m → ¬ Installed s m

/-- An installed lane whose distance is not greater than that of the installed lane before it (Table 1-5, check 1). -/
def OutOfOrder (s : State) (l : Lane) : Prop :=
  Installed s l ∧ ∃ m, Installed s m ∧ m < l ∧ (∀ k, m < k → k < l → ¬ Installed s k) ∧
    (s.lane l).distance ≤ (s.lane m).distance

/-- Check 1 of Table 1-5 passes. -/
def Ordered (s : State) : Prop := ∀ l, ¬ OutOfOrder s l

/-- Check 2 of Table 1-5 passes. -/
def FirstFarEnough (s : State) : Prop := ∀ l, FirstInstalled s l → 1414 + s.geo.readWindow ≤ (s.lane l).distance

/-- Check 3 of Table 1-5 passes. -/
def EndFarEnough (s : State) : Prop :=
  (∀ l, LastInstalled s l →
    (s.lane l).distance + (s.lane l).confirmSpan + s.geo.endTolerance + 1 ≤ s.geo.endDistance) ∧
  s.geo.endDistance ≤ 30000

/-- Check 4 of Table 1-5 passes. -/
def ResidueInstalled (s : State) : Prop := ∀ l, s.cat.residueLane = .lane l → Installed s l

/-- Check 5 of Table 1-5 passes. -/
def SomeInstalled (s : State) : Prop := ∃ l, Installed s l

/-- The five checks of Table 1-5 all pass (R14, R15). -/
structure GeometryPasses (s : State) : Prop where
  ordered : Ordered s
  firstFar : FirstFarEnough s
  endFar : EndFarEnough s
  residue : ResidueInstalled s
  someLane : SomeInstalled s

/-- The first check that fails, with the lane that Table 1-5 names on its failure (R14, R15). -/
def GeometryFails (s : State) (check lane : Nat) : Prop :=
  (check = 1 ∧ ∃ l : Lane, lane = l.val + 1 ∧ OutOfOrder s l ∧ ∀ k, k < l → ¬ OutOfOrder s k) ∨
  (check = 2 ∧ Ordered s ∧ ∃ l : Lane, lane = l.val + 1 ∧ FirstInstalled s l ∧ ¬ FirstFarEnough s) ∨
  (check = 3 ∧ Ordered s ∧ FirstFarEnough s ∧ ∃ l : Lane, lane = l.val + 1 ∧ LastInstalled s l ∧ ¬ EndFarEnough s) ∨
  (check = 4 ∧ Ordered s ∧ FirstFarEnough s ∧ EndFarEnough s ∧
    ∃ l : Lane, lane = l.val + 1 ∧ s.cat.residueLane = .lane l ∧ ¬ Installed s l) ∨
  (check = 5 ∧ Ordered s ∧ FirstFarEnough s ∧ EndFarEnough s ∧ ResidueInstalled s ∧ lane = 0 ∧ ¬ SomeInstalled s)

/-- The reply of a lane command carries the lane's state, fill and committed count as they stand after it (R99, R173). -/
def laneReply (r : LaneRecord) : List Byte := [r.state.code] ++ natChars r.fill ++ [byteOf r.committed]

/-- Several commands in turn, each from the state the one before it answered. -/
def inTurn : List Instr → State → Host.Outcome State Fault Refusal
  | [], s => .next s
  | i :: rest, s =>
    match exec i s with
    | .next t => inTurn rest t
    | .fault f => .fault f
    | .refused r => .refused r

end Sys2Proof.Safety
end

