-- ==== Sys2Proof/Certificates/Slice0/Obligations.lean ====
section
/-! DEFINITION. The statements for the provers. Each docstring names the rules it formalises and, where a clause rests on
a choice of the model, the log entry. `.next` in a conclusion says that the command completes, with the state shown. -/

open Sys2Proof Sys2Proof.Machine Sys2Proof.Safety

/-! ### The step -/

/-- A step takes the command at the front of the queue on the state with the queue's rest. -/
def Obligations.StepTakesFrontCommand : Prop :=
  ∀ (c : Instr) (rest : List Instr) (s : State),
    step { s with pending := c :: rest } = exec c { s with pending := rest }

/-- On an empty queue (the model's choice, logs 2 and 3): through a reset the time base alone runs; with no own event
due one clock passes; one that is due is taken; of several that are due, one is. -/
def Obligations.IdleStepTakesOwnEvents : Prop :=
  ∀ s : State, s.pending = [] →
    (∀ cause, s.inReset = some cause → step s = .next { s with xtal := (s.xtal + 1) % 16 }) ∧
    (Running s → s.ownDue = [] → step s = .next (s.elapse 1)) ∧
    (∀ c, Running s → s.ownDue = [c] → step s = exec c s) ∧
    (Running s → 2 ≤ s.ownDue.length → ∃ c ∈ s.ownDue, step s = exec c { s with choices := s.choices + 1 })

/-! ### Resets -/

/-- A power-on reset and a pin reset put every block into its reset state and hold it there, with every drive output
low and ATTN high; a pin reset inside a reset is part of it. The fields reset is silent on hold the model's choice: the
timers that do not run and the phase of the time base log 9's, and the reset cause (POWER, in a pin reset too), the
guard, the eyes and the straps, until the release records and samples them, log 32's, with the values of log 8. The
free-value counter and the queue, which both resets keep, are the model's own fields (logs 3, 9). -/
def Obligations.ResetsBegin : Prop :=
  ∀ s : State,
    (exec .powerOnReset s =
      .next { State.reset with inReset := some .power, choices := s.choices, pending := s.pending }) ∧
    (Running s → exec .pinReset s =
      .next { State.reset with
        inReset := some .pin, xtal := s.xtal, choices := s.choices, pending := s.pending }) ∧
    (∀ cause, s.inReset = some cause → exec .pinReset s = .next s ∧ (∀ l, s.drvLevel l = false) ∧ s.attnLevel = true)

/-- Through a reset no input, edge or character is taken: every command but a power-on reset and the release leaves the
part as it is (for the part's own events the model's choice, log 21). -/
def Obligations.NothingTakenInReset : Prop :=
  ∀ (c : Instr) (s : State) (cause : ResetCause), s.inReset = some cause → c ≠ .powerOnReset →
    (∀ pins, c ≠ .releaseOfResetN pins) → exec c s = .next s

/-- The release samples the eyes, the guard and the straps, starts the carrier's first period (from that very clock,
log 29) and records the cause; after a power-on reset and its release the mode is SETUP, with no ticket, an empty catalogue and every lane CLOSED and
not installed. -/
def Obligations.ReleaseSamplesPins : Prop :=
  (∀ (pins : Pins) (cause : ResetCause) (s : State), s.inReset = some cause →
    exec (.releaseOfResetN pins) s = .next { s with
      inReset := none
      ind := { s.ind with eye := pins.inductionEye }
      em := { s.em with eye := pins.endEye }
      mc := { s.mc with guard := pins.guard, cause := cause }
      sli := { s.sli with address := pins.address, baud := pins.baud }
      carrier := { s.carrier with phase := 0 } }) ∧
  (∀ (pins : Pins) (s : State), ∃ t, inTurn [.powerOnReset, .releaseOfResetN pins] s = .next t ∧
    t.mode = .setup ∧ t.mc.cause = .power ∧ t.tt.belt = [] ∧ (∀ p, t.cat.patterns.get p = .unused) ∧
    (∀ f, t.cat.forms.get f = none) ∧ (∀ c, t.cat.routes.get c = .runOff) ∧
    ∀ l, (t.lane l).state = .closed ∧ (t.lane l).distance = 0)

/-- The reset values of Tables 1-4, 3-3, 4-2, 4-5, 6-3, 7-4 and 8-3 and of the rules cited, as State.reset holds them:
the tallies and run-off reason counters, every pattern, form and route entry, and each drive's end-held mark and stroke
kind among them. -/
def Obligations.ResetValuesOfTheManual : Prop :=
  State.reset.mode = .setup ∧ State.reset.mc.cause = .power ∧
  State.reset.bcu.remainder = 0 ∧ State.reset.bcu.count = 0 ∧ State.reset.bcu.motion = .stopped ∧
  State.reset.bcu.p8 = 65535 ∧ State.reset.bcu.blockCount = 0 ∧
  State.reset.geo = ⟨0, 30000, 200, 40, 50, 3⟩ ∧
  State.reset.tt.belt = [] ∧ (∀ k, State.reset.tt.generations.get k = 0) ∧ State.reset.tt.untracked = 0 ∧
  (∀ i, State.reset.tt.tallies.get i = 0) ∧ (∀ i, State.reset.tt.runOffReasons.get i = 0) ∧
  State.reset.ind.nextTag = 0 ∧ State.reset.ind.underEye = none ∧ State.reset.ind.noReadStreak = 0 ∧
  State.reset.rli.fifo = [] ∧ State.reset.rli.assembly = .waitHeader ∧ State.reset.rli.errors = 0 ∧
  State.reset.rli.strays = 0 ∧
  (∀ p, State.reset.cat.patterns.get p = .unused) ∧ (∀ f, State.reset.cat.forms.get f = none) ∧
  (∀ c, State.reset.cat.routes.get c = .runOff) ∧
  (∀ c, State.reset.classRecord c = ⟨0, 40, 60, 30, 20⟩) ∧ State.reset.cat.residueLane = .runOff ∧
  State.reset.cat.defaultClass = 0 ∧ State.reset.cat.threshold = 4 ∧
  (∀ l, State.reset.lane l =
    ⟨.closed, 0, 0, 200, .runOff, 20000, 32, 50, 30000, .activeHigh, 0, 0, 0, 0, 0⟩) ∧
  (∀ l, State.reset.channel l = ⟨none, none⟩) ∧
  (∀ l, (State.reset.drive l).state = .idle ∧ (State.reset.drive l).endHeld = false ∧
    (State.reset.drive l).kind = .none) ∧
  State.reset.carrier.select = 0 ∧ State.reset.carrier.pending = none ∧ State.reset.em.strays = 0 ∧
  State.reset.sli.frame = .unselected ∧ State.reset.sli.flags = 0 ∧ State.reset.sli.mask = 0x3FF ∧
  State.reset.sli.lineErrors = 0

/-- When the reply to SOFT RESET has been sent, the reset takes effect: the flush, with every live ticket tallied
FLUSHED and the other columns kept, every drive IDLE, every channel clear, the reader line, the Induction Unit, the
Belt Count Unit, the failures, the mode, the cause, the frame state, the flags and the mask; everything else is kept,
and the committed counts are 0 with no ticket live. The zeros of stopped timers are the model's (logs 9, 33), and a
capture not yet taken is discarded (log 11). -/
def Obligations.SoftResetTakesEffect : Prop :=
  ∀ (s : State) (r : Reply), Running s → s.sli.reply = none → s.sli.sending = some r → r.softReset = true →
    s.replyTime r ≤ s.sli.sendTimer →
    ∃ t, exec .softResetEffect s = .next t ∧
      t.tt.belt = [] ∧ t.tt.generations = s.tt.generations ∧ t.tt.untracked = s.tt.untracked ∧
      t.tt.runOffReasons = s.tt.runOffReasons ∧ FlushTallied s t ∧
      (∀ l, t.drive l = Drive.reset) ∧ (∀ l, t.channel l = ⟨none, none⟩) ∧
      (∀ l, t.lane l = { s.lane l with failures := 0, committed := (t.lane l).committed }) ∧
      (CommitmentsKept s → ∀ l, (t.lane l).committed = 0) ∧
      t.rli = { s.rli with
        fifo := if s.rli.sendTimer.isSome then s.rli.fifo.take 1 else [], assembly := .waitHeader, gapTimer := 0 } ∧
      t.ind = { s.ind with underEye := none, blockedLength := 0, nextTag := 0, noReadStreak := 0 } ∧
      t.bcu = { s.bcu with
        motion := .stopped, p8 := 65535, blockCount := 0, blockTimer := 0, stopTimer := 0, capture := none } ∧
      t.mc = { s.mc with mode := .setup, cause := .soft } ∧
      t.sli = { s.sli with
        frame := .unselected, broadcast := false, gapTimer := 0, reply := none, quietTimer := 0, sending := none,
        sendTimer := 0, flags := 0, mask := 0x3FF } ∧
      t.cat = s.cat ∧ t.geo = s.geo ∧ t.carrier = s.carrier ∧ t.em = s.em ∧ t.xtal = s.xtal ∧ t.inReset = none ∧
      t.choices = s.choices ∧ t.pending = s.pending

/-! ### Belt counts (chapter 1) -/

/-- The count arithmetic of R4: the signed difference, reached, and the later of two counts. -/
def Obligations.CountArithmetic : Prop :=
  ∀ a b x now : Count,
    (signedDiff a b = if (b - a).toNat < 32768 then ((b - a).toNat : Int) else ((b - a).toNat : Int) - 65536) ∧
    ((b - a).toNat = (b.toNat + 65536 - a.toNat) % 65536) ∧
    (isReached now x = true ↔ 0 ≤ signedDiff x now) ∧
    (isReached now x = true ↔ (now.toNat + 65536 - x.toNat) % 65536 < 32768) ∧
    (laterCount a b = if 0 < signedDiff a b then b else a)

/-- An encoder pulse with no reach of the present count outstanding: it advances the prescale remainder, or produces one
belt count, which starts the belt, advances the block of eight, and at the eighth hands the block timer to the capture
(log 11); the blocked length of the ticket under a blocked eye advances with it, and the count that brings it to 1023
marks the ticket overlength and sets OVERLENGTH. -/
def Obligations.EncoderPulseCounts : Prop :=
  ∀ s : State, Running s → s.countDue = [] →
    (s.bcu.remainder + 1 < 2 ^ s.geo.prescaleExponent →
      exec .encoderPulse s = .next { s with bcu := { s.bcu with remainder := s.bcu.remainder + 1 } }) ∧
    (∀ c : State, 2 ^ s.geo.prescaleExponent ≤ s.bcu.remainder + 1 →
      c = { s with
        bcu := match s.bcu.motion with
          | .stopped => { s.bcu with
              remainder := 0, count := s.bcu.count + 1, motion := .moving, blockCount := 0, blockTimer := 0,
              stopTimer := 0 }
          | .moving =>
            if s.bcu.blockCount + 1 < 8 then
              { s.bcu with
                remainder := 0, count := s.bcu.count + 1, blockCount := s.bcu.blockCount + 1, stopTimer := 0 }
            else
              { s.bcu with
                remainder := 0, count := s.bcu.count + 1, blockCount := 0, blockTimer := 0, stopTimer := 0
                capture := some s.bcu.blockTimer }
        ind := if s.ind.underEye ≠ none ∧ s.ind.eye = .blocked then
            { s.ind with blockedLength := min (s.ind.blockedLength + 1) 1023 }
          else s.ind } →
      ((∀ k t, ¬ GrowsOverlength s k t) → exec .encoderPulse s = .next c) ∧
      (∀ k t, GrowsOverlength s k t →
        exec .encoderPulse s = .next ((c.modTicket k (fun u => { u with overlength := true })).raise .overlength)))

/-- A P8 capture (latched, log 11) sets P8, 0 giving 1; an armed channel that is the only one and has no deferred fire
gets its new lead and planned fire count, written into the ticket too. A new count that is ahead is watched; one that
is already reached is fired late at once, marked LATE: it begins a stroke, extends the one that runs, is deferred, or
in HOLD is missed, shown for a ticket alone in its route queue. The zeros of a drive's timers that do not run, and of
the cap and duty kept for no stroke, are the model's (log 33). -/
def Obligations.P8CaptureRecomputesLead : Prop :=
  ∀ (s : State) (v : Nat), Running s → s.bcu.capture = some v →
    (∃ t, exec .p8Capture s = .next t ∧ t.bcu = { s.bcu with p8 := max 1 v, capture := none } ∧ t.cat = s.cat ∧
      t.geo = s.geo ∧ t.rli = s.rli ∧ t.em = s.em ∧ t.carrier = s.carrier) ∧
    ((∀ l, (s.channel l).armed = none) →
      exec .p8Capture s = .next { s with bcu := { s.bcu with p8 := max 1 v, capture := none } }) ∧
    (∀ (l : Lane) (a : Armed) (t : Ticket), (s.channel l).armed = some a → a.lateLimit = none →
      s.ticketAt? a.slot = some t → (∀ m, m ≠ l → (s.channel m).armed = none) →
      ∀ (lead : Nat) (planned : Count),
        lead = min ((16 * (s.lane l).latency + max 1 v) / (2 * max 1 v)) 255 →
        planned = t.nominal.getD 0 - BitVec.ofNat 16 lead → isReached s.bcu.count planned = false →
        exec .p8Capture s =
          .next ((({ s with bcu := { s.bcu with p8 := max 1 v, capture := none } } : State).modChannel l
            (fun c => { c with armed := some { a with lead := lead, planned := planned } })).modTicket a.slot
              (fun u => { u with fireCount := some planned }))) ∧
    (∀ (l : Lane) (a : Armed) (t : Ticket) (p : State) (lead : Nat) (planned own : Count),
      ArmedAlone s l a t → (∀ m, m ≠ l → (s.channel m).armed = none) →
      p = { s with bcu := { s.bcu with p8 := max 1 v, capture := none } } →
      lead = min ((16 * (s.lane l).latency + max 1 v) / (2 * max 1 v)) 255 →
      planned = t.nominal.getD 0 - BitVec.ofNat 16 lead → isReached s.bcu.count planned = true →
      own = s.bcu.count + BitVec.ofNat 16 (t.span.getD 0) →
      ((s.mode = .run ∨ s.mode = .drain) →
        ((s.drive l).state = .idle →
          exec .p8Capture s = .next (((p.modTicket t.slot (fun _ => strokingLate s l t)).modChannel l (fun _ =>
            { armed := none, strokeEnd := some own })).modDrive l (fun _ => begun (s.lane l) .fire))) ∧
        (∀ e, Driven s l → (s.channel l).strokeEnd = some e →
          exec .p8Capture s = .next ((p.modTicket t.slot (fun _ => strokingLate s l t)).modChannel l (fun _ =>
            { armed := none, strokeEnd := some (if 0 < signedDiff e own then own else e) }))) ∧
        (∀ c, (s.drive l).state = .recover → t.cls = some c →
          exec .p8Capture s = .next ((p.modTicket t.slot (fun u => { u with
              fireCount := some planned, marks := { u.marks with late := true, deferred := true } })).modChannel l
            (fun ch => { ch with armed := some { a with
              lead := lead, planned := planned
              lateLimit := some (t.nominal.getD 0 + BitVec.ofNat 16 (s.classRecord c).lateAllowance) } })))) ∧
      (InHold s → isReached s.bcu.count (endBoundsOf s t).2 = false →
        exec .p8Capture s =
          .next { (p.modLane l (fun r => { r with committed := r.committed - 1 })).modChannel l
              (fun ch => { ch with armed := none }) with
            tt := { s.tt with
              belt := s.tt.belt.map (fun u => if u.slot = t.slot then
                { ranOff s .missed t with fireCount := some planned, marks := { t.marks with late := true } } else u)
              runOffReasons := tableMod s.tt.runOffReasons 5 (fun n => min (n + 1) 65535) } }))

/-- The stop event: STOPPED, P8 65535, the block discarded and BELT_STOPPED set; in STOPPED there is none (log 4). The
zeros of the timers that have stopped are the model's (log 33). -/
def Obligations.StopTimeStopsTheBelt : Prop :=
  ∀ s : State, Running s →
    (s.bcu.motion = .stopped → exec .stopTimeExpiry s = .next s) ∧
    (s.bcu.motion = .moving → s.geo.stopTime * 10000 ≤ s.bcu.stopTimer →
      ∃ t, exec .stopTimeExpiry s = .next t ∧
        t.bcu = { s.bcu with
          motion := .stopped, p8 := 65535, blockCount := 0, blockTimer := 0, stopTimer := 0, capture := none } ∧
        t.flagSet .beltStopped = true ∧ t.cat = s.cat ∧ t.geo = s.geo ∧ t.rli = s.rli ∧ t.em = s.em ∧
        ((∀ l, (s.channel l).armed = none) → t = ({ s with bcu := t.bcu } : State).raise .beltStopped))

/-! ### Induction and the reader line (chapter 3) -/

/-- A leading edge that finds a free slot and no pending holder of its tag: the lowest free slot is allocated with the
next generation, the ticket joins the belt list and is under the eye, the next tag advances, and the trigger is queued,
or counted as a reader error when four wait; TABLE_HIGH from 112 live tickets on. A pending ticket that still holds the
next tag is first resolved unread, shown for one alone on the belt in RUN or HOLD with residue lane 0. With no free
slot the untracked-item counter, TABLE_FULL and the eye alone change, and no ticket is under the eye. In SETUP both
edges change the eye state alone. That the blocked length of no ticket is 0 is the model's choice (log 33). -/
def Obligations.LeadingEdgeOpensTicket : Prop :=
  ∀ s : State,
    (∀ k : Slot, Attending s → s.ind.eye = .clear → (∀ t ∈ s.tt.belt, t.slot ≠ k) →
      (∀ j : Slot, j < k → ∃ t ∈ s.tt.belt, t.slot = j) →
      (∀ t ∈ s.tt.belt, t.state = .pendingRead → t.tag ≠ some s.ind.nextTag) →
      exec .inductionLeadingEdge s = .next { s with
        tt := { s.tt with
          generations := s.tt.generations.set k.val (s.tt.generations.get k + 1) k.isLt
          belt := s.tt.belt ++ [newTicket k (s.tt.generations.get k + 1) s.ind.nextTag s.bcu.count] }
        ind := { s.ind with
          eye := .blocked, nextTag := s.ind.nextTag + 1, underEye := some k, blockedLength := 0 }
        rli := if s.rli.fifo.length < 4 then { s.rli with fifo := s.rli.fifo ++ [s.ind.nextTag] }
          else { s.rli with errors := min (s.rli.errors + 1) 65535 }
        sli := { s.sli with
          flags := s.sli.flags ||| (if 112 ≤ s.tt.belt.length + 1 then 8 else 0)
            ||| (if s.rli.fifo.length < 4 then 0 else 16) } }) ∧
    (∀ (k : Slot) (t : Ticket), Running s → (s.mode = .run ∨ InHold s) → s.ind.eye = .clear → s.tt.belt = [t] →
      t.state = .pendingRead → t.tag = some s.ind.nextTag → t.overlength = false → s.cat.residueLane = .runOff →
      isReached s.bcu.count (endBoundsOf s t).2 = false → s.ind.noReadStreak < 15 →
      k = (if t.slot = 0 then 1 else 0) →
      exec .inductionLeadingEdge s = .next { s with
        tt := { s.tt with
          generations := s.tt.generations.set k.val (s.tt.generations.get k + 1) k.isLt
          belt := [unreadOff s t, newTicket k (s.tt.generations.get k + 1) s.ind.nextTag s.bcu.count] }
        ind := { s.ind with
          eye := .blocked, nextTag := s.ind.nextTag + 1, underEye := some k, blockedLength := 0
          noReadStreak := s.ind.noReadStreak + 1 }
        rli := if s.rli.fifo.length < 4 then { s.rli with fifo := s.rli.fifo ++ [s.ind.nextTag] }
          else { s.rli with errors := min (s.rli.errors + 1) 65535 }
        sli := { s.sli with flags := s.sli.flags ||| (if s.rli.fifo.length < 4 then 0 else 16) } }) ∧
    (Attending s → s.ind.eye = .clear → (∀ k : Slot, ∃ t ∈ s.tt.belt, t.slot = k) →
      exec .inductionLeadingEdge s = .next { s with
        tt := { s.tt with untracked := min (s.tt.untracked + 1) 65535 }
        ind := { s.ind with eye := .blocked, underEye := none, blockedLength := 0 }
        sli := { s.sli with flags := s.sli.flags ||| 4 } }) ∧
    (Running s → s.mode = .setup →
      exec .inductionLeadingEdge s = .next { s with ind := { s.ind with eye := .blocked } } ∧
      exec .inductionTrailingEdge s = .next { s with ind := { s.ind with eye := .clear } })

/-- A trailing edge: with no ticket under the eye the eye state alone changes; with a ticket whose read is not held the
length and the read-window end count are stored; with its read held the ticket is resolved, with a good read. That the
blocked length of no ticket is 0 is the model's choice (log 33). -/
def Obligations.TrailingEdgeEndsTicket : Prop :=
  ∀ s : State, Attending s → s.ind.eye = .blocked →
    (s.ind.underEye = none →
      exec .inductionTrailingEdge s = .next { s with ind := { s.ind with eye := .clear } }) ∧
    (∀ k t, s.ind.underEye = some k → s.ticketAt? k = some t →
      (s.ind.blockedLength < 1023 ∨ t.overlength = true) →
      (t.readHeld = false → 0 < s.geo.readWindow → s.geo.readWindow ≤ 1023 →
        exec .inductionTrailingEdge s =
          .next (({ s with ind := { s.ind with eye := .clear, underEye := none, blockedLength := 0 } } :
            State).modTicket k (fun u => { u with
              length := some (max 1 s.ind.blockedLength)
              windowEnd := some (s.bcu.count + BitVec.ofNat 16 s.geo.readWindow) }))) ∧
      (t.readHeld = true → t.state = .pendingRead →
        ∃ u, exec .inductionTrailingEdge s = .next u ∧ u.ind.eye = .clear ∧ u.ind.underEye = none ∧
          u.ind.noReadStreak = 0 ∧ (∀ v ∈ u.tt.belt, v.slot = k → v.state ≠ .pendingRead) ∧ u.cat = s.cat ∧
          u.geo = s.geo ∧ u.rli = s.rli ∧ u.em = s.em ∧ u.carrier = s.carrier))

/-- A blocked length of 1023 marks the ticket overlength and sets OVERLENGTH, where the count event has not done so
already, as in a run it has (log 18), and then the row changes nothing; at its hold limit the ticket under the eye ends
there with length 1023 while the eye stays blocked. That the blocked length of no ticket is 0 is the model's choice
(log 33). -/
def Obligations.OverlengthAndHoldLimit : Prop :=
  ∀ (s : State) (k : Slot) (t : Ticket), Running s → s.ind.underEye = some k → s.ticketAt? k = some t →
    (t.overlength = false → 1023 ≤ s.ind.blockedLength →
      exec .overlength s = .next ((s.modTicket k (fun u => { u with overlength := true })).raise .overlength)) ∧
    (t.overlength = true ∨ s.ind.blockedLength < 1023 → exec .overlength s = .next s) ∧
    (t.overlength = true → t.readHeld = false → isReached s.bcu.count (t.induction + 30000) = true →
      0 < s.geo.readWindow → s.geo.readWindow ≤ 1023 →
      exec .holdLimitReached s =
        .next (({ s with ind := { s.ind with underEye := none, blockedLength := 0 } } : State).modTicket k
          (fun u => { u with
            length := some 1023
            windowEnd := some (s.bcu.count + BitVec.ofNat 16 s.geo.readWindow) })))

/-- A read window that closes resolves its ticket unread: the streak rises, NOREAD is set from 16 on, and the ticket is
pending no more; alone on the belt in RUN or HOLD with residue lane 0 it runs off with reason UNREAD, counted by no
run-off reason counter. The crowding rule, shown for a ticket that follows an ARMED one too closely: at the same lane it
is joined; at run-off it stands and the ARMED one is split; at another lane both are split, each with reason CROWDED and
its commitment released. -/
def Obligations.ReadWindowExpiryResolvesUnread : Prop :=
  ∀ (s : State) (k : Slot) (t : Ticket) (e : Count), Running s → s.ticketAt? k = some t → t.state = .pendingRead →
    t.windowEnd = some e → isReached s.bcu.count e = true →
    (∃ u, exec (.readWindowExpiry k) s = .next u ∧
      u.ind.noReadStreak = min (s.ind.noReadStreak + 1) 255 ∧
      (16 ≤ min (s.ind.noReadStreak + 1) 255 → u.flagSet .noRead = true) ∧
      (∀ v ∈ u.tt.belt, v.slot = k → v.state ≠ .pendingRead) ∧ u.ind.eye = s.ind.eye ∧ u.bcu = s.bcu ∧
      u.cat = s.cat ∧ u.geo = s.geo ∧ u.rli = s.rli ∧ u.em = s.em ∧ u.carrier = s.carrier) ∧
    (s.tt.belt = [t] → t.overlength = false → (s.mode = .run ∨ InHold s) → s.cat.residueLane = .runOff →
      isReached s.bcu.count (endBoundsOf s t).2 = false → s.ind.noReadStreak < 15 →
      exec (.readWindowExpiry k) s = .next { s with
        ind := { s.ind with noReadStreak := s.ind.noReadStreak + 1 }
        tt := { s.tt with belt := [unreadOff s t] } }) ∧
    (∀ (x : Ticket) (m : Lane) (a : Armed), s.tt.belt = [x, t] → x.slot ≠ t.slot → x.dest = some (.lane m) →
      ArmedAlone s m a x → TooClose s x t → t.overlength = false → (s.mode = .run ∨ InHold s) →
      s.ind.noReadStreak < 15 →
      (s.cat.residueLane = .lane m → s.eligible t s.cat.defaultClass m = true →
        exec (.readWindowExpiry k) s = .next { s with
          ind := { s.ind with noReadStreak := s.ind.noReadStreak + 1 }
          lanes := tableMod s.lanes m (fun r => { r with committed := r.committed + 1 })
          tt := { s.tt with belt := [x, { t with
            state := .routed, tag := none, windowEnd := none, outlet := none, cls := some s.cat.defaultClass
            dest := some (.lane m), reason := some .unread, hops := 0, joined := true, endBounds := none
            nominal := some (s.nominalAt t s.cat.defaultClass m), span := some (spanOf s t s.cat.defaultClass) }] } }) ∧
      (s.cat.residueLane = .runOff → isReached s.bcu.count (endBoundsOf s t).2 = false →
        isReached s.bcu.count (endBoundsOf s x).2 = false →
        exec (.readWindowExpiry k) s = .next { s with
          ind := { s.ind with noReadStreak := s.ind.noReadStreak + 1 }
          lanes := tableMod s.lanes m (fun r => { r with committed := r.committed - 1 })
          channels := tableMod s.channels m (fun ch => { ch with armed := none })
          tt := { s.tt with
            belt := [{ ranOff s .crowded x with fireCount := none }, unreadOff s t]
            runOffReasons := tableMod s.tt.runOffReasons 4 (fun n => min (n + 1) 65535) } }) ∧
      (∀ l, l ≠ m → s.cat.residueLane = .lane l → s.eligible t s.cat.defaultClass l = true →
        (s.channel l).armed = none →
        isReached s.bcu.count (endBoundsOf s t).2 = false → isReached s.bcu.count (endBoundsOf s x).2 = false →
        exec (.readWindowExpiry k) s = .next { s with
          ind := { s.ind with noReadStreak := s.ind.noReadStreak + 1 }
          lanes := tableMod s.lanes m (fun r => { r with committed := r.committed - 1 })
          channels := tableMod s.channels m (fun ch => { ch with armed := none })
          tt := { s.tt with
            belt := [{ ranOff s .crowded x with fireCount := none }, { unreadOff s t with reason := some .crowded }]
            runOffReasons := tableMod s.tt.runOffReasons 4 (fun n => min (n + 2) 65535) } }))

/-- The reader line's own events: a trigger begins when the transmitter is idle, its tag leaves the FIFO when it has
been sent, and a gap of 2 ms abandons the report under assembly. The gap timer's zero in WAIT_HEADER is the model's
(log 33). -/
def Obligations.TriggersAndReaderGap : Prop :=
  ∀ s : State, Running s →
    (s.rli.sendTimer = none → s.rli.fifo ≠ [] →
      exec .triggerSend s = .next { s with rli := { s.rli with sendTimer := some 0 } }) ∧
    (∀ t, s.rli.sendTimer = some t → 312 ≤ t →
      exec .triggerSent s = .next { s with rli := { s.rli with sendTimer := none, fifo := s.rli.fifo.drop 1 } }) ∧
    (s.rli.assembly ≠ .waitHeader → 2000 ≤ s.rli.gapTimer →
      exec .readerGapTimeout s = .next { s with
        rli := { s.rli with assembly := .waitHeader, gapTimer := 0, errors := min (s.rli.errors + 1) 65535 }
        sli := { s.sli with flags := s.sli.flags ||| 16 } })

/-- Table 3-2 but for the completed report: a character with an error is counted once and leaves WAIT_HEADER; a marked
20h to 2Fh opens a report; any other marked character closes the one under assembly; data fills it. The gap timer's
zero in WAIT_HEADER is the model's (log 33). -/
def Obligations.ReaderCharactersAssemble : Prop :=
  ∀ (s : State) (c : LineChar), Running s →
    (c.good = false →
      exec (.readerCharacter c) s = .next { s with
        rli := { s.rli with assembly := .waitHeader, gapTimer := 0, errors := min (s.rli.errors + 1) 65535 }
        sli := { s.sli with flags := s.sli.flags ||| 16 } }) ∧
    (c.good = true → c.marked = true → s.rli.assembly = .waitHeader →
      exec (.readerCharacter c) s =
        .next (if 0x20 ≤ c.value.toNat ∧ c.value.toNat ≤ 0x2F then
          { s with rli := { s.rli with assembly := .waitPattern (c.value.truncate 4), gapTimer := 0 } } else s)) ∧
    (c.good = true → c.marked = true → s.rli.assembly ≠ .waitHeader →
      exec (.readerCharacter c) s = .next { s with
        rli := { s.rli with
          assembly := if 0x20 ≤ c.value.toNat ∧ c.value.toNat ≤ 0x2F then .waitPattern (c.value.truncate 4)
            else .waitHeader
          gapTimer := 0, errors := min (s.rli.errors + 1) 65535 }
        sli := { s.sli with flags := s.sli.flags ||| 16 } }) ∧
    (c.good = true → c.marked = false →
      (s.rli.assembly = .waitHeader → exec (.readerCharacter c) s = .next s) ∧
      (∀ tag, s.rli.assembly = .waitPattern tag → exec (.readerCharacter c) s =
        .next { s with rli := { s.rli with assembly := .waitForm tag c.value, gapTimer := 0 } }) ∧
      (∀ tag p, s.rli.assembly = .waitForm tag p → exec (.readerCharacter c) s =
        .next { s with rli := { s.rli with assembly := .waitStatus tag p c.value, gapTimer := 0 } }))

/-- A completed report: with no pending ticket of its tag, or with that ticket's read already held, it is a stray; a
good read is held for the ticket under the eye; a no-read writes quality and ware code; a good read past the trailing
edge resolves the ticket. The gap timer's zero in WAIT_HEADER is the model's (log 33). -/
def Obligations.ReportsMatchedAndJudged : Prop :=
  ∀ (s : State) (c : LineChar) (tag : Tag) (p f : Byte), Running s → c.good = true → c.marked = false →
    s.rli.assembly = .waitStatus tag p f →
    ((∀ t ∈ s.tt.belt, t.state = .pendingRead → t.tag = some tag → t.readHeld = true) →
      exec (.readerCharacter c) s = .next { s with rli := { s.rli with
        assembly := .waitHeader, gapTimer := 0, strays := min (s.rli.strays + 1) 65535 } }) ∧
    (∀ t, s.pendingWithTag? tag = some t → t.readHeld = false →
      (c.value.toNat < 16 → s.cat.threshold ≤ c.value.toNat → s.ind.underEye = some t.slot →
        exec (.readerCharacter c) s =
          .next (({ s with rli := { s.rli with assembly := .waitHeader, gapTimer := 0 } } : State).modTicket t.slot
            (fun u => { u with quality := some (c.value.truncate 4), ware := some (p, f), readHeld := true }))) ∧
      (16 ≤ c.value.toNat ∨ c.value.toNat < s.cat.threshold →
        exec (.readerCharacter c) s =
          .next (({ s with rli := { s.rli with assembly := .waitHeader, gapTimer := 0 } } : State).modTicket t.slot
            (fun u => { u with
              quality := some (c.value.truncate 4)
              ware := if c.value.toNat < 16 then some (p, f) else none }))) ∧
      (SlotsDistinct s → c.value.toNat < 16 → s.cat.threshold ≤ c.value.toNat → s.ind.underEye ≠ some t.slot →
        ∃ u, exec (.readerCharacter c) s = .next u ∧ u.ind.noReadStreak = 0 ∧
          (∀ v ∈ u.tt.belt, v.slot = t.slot → v.state ≠ .pendingRead) ∧
          u.rli = { s.rli with assembly := .waitHeader, gapTimer := 0 } ∧ u.cat = s.cat ∧ u.bcu = s.bcu))

/-! ### Resolution (chapter 5) -/

/-- The walk ends at an eligible lane with the start reason, after at most six links; without a lane it ends NO_LANE
after at most six links, or, started at 0, with the start reason and no hops. A start lane that is eligible is the lane
taken. The hop count is the number of overflow links followed from the start lane, the lane taken is the one they lead
to, and no lane before it is eligible; a walk without a lane ends where a link is 0 or after the sixth. -/
def Obligations.WalkEndsAtEligibleLane : Prop :=
  ∀ (s : State) (t : Ticket) (c : WareClass) (r : Reason),
    (∀ start l, (s.walk t c start r).lane = some l →
      s.eligible t c l = true ∧ (s.walk t c start r).reason = r ∧ (s.walk t c start r).hops ≤ 6) ∧
    (∀ l, (s.walk t c (.lane l) r).lane = none →
      s.eligible t c l = false ∧ (s.walk t c (.lane l) r).reason = .noLane ∧ (s.walk t c (.lane l) r).hops ≤ 6) ∧
    (∀ l m, (s.walk t c (.lane l) r).lane = some m → linked s (s.walk t c (.lane l) r).hops l = some m ∧
      ∀ k, k < (s.walk t c (.lane l) r).hops → ∃ j, linked s k l = some j ∧ s.eligible t c j = false) ∧
    (∀ l, (s.walk t c (.lane l) r).lane = none →
      (∀ k, k ≤ (s.walk t c (.lane l) r).hops → ∃ j, linked s k l = some j ∧ s.eligible t c j = false) ∧
      ((s.walk t c (.lane l) r).hops = 6 ∨ linked s ((s.walk t c (.lane l) r).hops + 1) l = none)) ∧
    (s.walk t c .runOff r = ⟨none, 0, r⟩) ∧
    (∀ l, s.eligible t c l = true → s.walk t c (.lane l) r = ⟨some l, 0, r⟩) ∧
    (∀ l, s.eligible t c l = true ↔
      (s.lane l).distance ≠ 0 ∧ (s.lane l).state = .opened ∧
      (s.lane l).fill + (s.lane l).committed < (s.lane l).capacity ∧
      (min ((16 * (s.lane l).latency + s.bcu.p8) / (2 * s.bcu.p8)) 255 : Int) + 8 <
        signedDiff s.bcu.count
          (t.induction + BitVec.ofNat 16 (s.lane l).distance + (s.classRecord c).strikeOffset.signExtend 16))

/-- A good read of an ACTIVE pattern whose form has a class, for a ticket past its trailing edge and alone on the belt:
it is resolved to the route cell's lane when that lane is eligible, commits it, takes the stroke span of its class, and
is armed with its fire planned ahead. Every start case of Table 5-1 for a good read, shown for the same ticket: a start
at 0 runs off with the start reason, OVERLENGTH, DRAINING and ROUTED each raising its own counter; a start at an
eligible lane is armed there with the start reason; a start at an ineligible lane whose link is 0 runs off with
NO_LANE. The gap timer's zero in WAIT_HEADER is the model's (log 33). -/
def Obligations.ReportRoutesTicketToItsLane : Prop :=
  (∀ (s : State) (c : LineChar) (tag : Tag) (p f : Byte) (t : Ticket) (o : Outlet) (cls : WareClass) (l : Lane)
    (hf : f.toNat < 64) (planned : Count),
    Running s → (s.mode = .run ∨ InHold s) → c.good = true → c.marked = false → c.value.toNat < 16 →
    s.cat.threshold ≤ c.value.toNat → s.rli.assembly = .waitStatus tag p f → s.tt.belt = [t] →
    t.state = .pendingRead → t.tag = some tag → t.readHeld = false → t.overlength = false →
    s.ind.underEye ≠ some t.slot → s.cat.patterns.get p.toFin = .active o → s.cat.forms.get ⟨f.toNat, hf⟩ = some cls →
    s.cat.routes.get (routeIndex o cls) = .lane l → s.eligible t cls l = true → (s.channel l).armed = none →
    planned = s.nominalAt t cls l - BitVec.ofNat 16 (s.lead l) → isReached s.bcu.count planned = false →
    exec (.readerCharacter c) s = .next { s with
      rli := { s.rli with assembly := .waitHeader, gapTimer := 0 }
      ind := { s.ind with noReadStreak := 0 }
      lanes := tableMod s.lanes l (fun r => { r with committed := r.committed + 1 })
      channels := tableMod s.channels l (fun ch =>
        { ch with armed := some { slot := t.slot, lead := s.lead l, planned := planned, lateLimit := none } })
      tt := { s.tt with belt := [{ t with
        state := .armed, tag := none, windowEnd := none, quality := some (c.value.truncate 4), ware := some (p, f)
        outlet := some o, cls := some cls, dest := some (.lane l), reason := some .routed, hops := 0, joined := false
        nominal := some (s.nominalAt t cls l), fireCount := some planned
        span := some (spanOf s t cls), endBounds := none }] } }) ∧
  (∀ (s : State) (c : LineChar) (tag : Tag) (p f : Byte) (t : Ticket) (o : Option Outlet) (cls : WareClass)
    (start : Dest) (r : Reason),
    Attending s → c.good = true → c.marked = false → c.value.toNat < 16 → s.cat.threshold ≤ c.value.toNat →
    s.rli.assembly = .waitStatus tag p f → s.tt.belt = [t] → t.state = .pendingRead → t.tag = some tag →
    t.readHeld = false → s.ind.underEye ≠ some t.slot → StartsAt s t p f o cls start r →
    (start = .runOff → isReached s.bcu.count (endBoundsOf s t).2 = false →
      exec (.readerCharacter c) s = .next { s with
        rli := { s.rli with assembly := .waitHeader, gapTimer := 0 }
        ind := { s.ind with noReadStreak := 0 }
        tt := { s.tt with
          belt := [readOff s t p f c.value o cls r]
          runOffReasons :=
            if r = .overlength then tableMod s.tt.runOffReasons 0 (fun n => min (n + 1) 65535)
            else if r = .draining then tableMod s.tt.runOffReasons 1 (fun n => min (n + 1) 65535)
            else if r = .routed then tableMod s.tt.runOffReasons 2 (fun n => min (n + 1) 65535)
            else s.tt.runOffReasons } }) ∧
    (∀ l planned, start = .lane l → s.eligible t cls l = true → (s.channel l).armed = none →
      planned = s.nominalAt t cls l - BitVec.ofNat 16 (s.lead l) → isReached s.bcu.count planned = false →
      exec (.readerCharacter c) s = .next { s with
        rli := { s.rli with assembly := .waitHeader, gapTimer := 0 }
        ind := { s.ind with noReadStreak := 0 }
        lanes := tableMod s.lanes l (fun x => { x with committed := x.committed + 1 })
        channels := tableMod s.channels l (fun ch =>
          { ch with armed := some { slot := t.slot, lead := s.lead l, planned := planned, lateLimit := none } })
        tt := { s.tt with belt := [{ t with
          state := .armed, tag := none, windowEnd := none, quality := some (c.value.truncate 4), ware := some (p, f)
          outlet := o, cls := some cls, dest := some (.lane l), reason := some r, hops := 0, joined := false
          nominal := some (s.nominalAt t cls l), fireCount := some planned
          span := some (spanOf s t cls), endBounds := none }] } }) ∧
    (∀ l, start = .lane l → s.eligible t cls l = false → (s.lane l).overflow = .runOff →
      isReached s.bcu.count (endBoundsOf s t).2 = false →
      exec (.readerCharacter c) s = .next { s with
        rli := { s.rli with assembly := .waitHeader, gapTimer := 0 }
        ind := { s.ind with noReadStreak := 0 }
        tt := { s.tt with
          belt := [readOff s t p f c.value o cls .noLane]
          runOffReasons := tableMod s.tt.runOffReasons 3 (fun n => min (n + 1) 65535) } }))

/-! ### Diverts (chapters 7 and 8) -/

/-- A fire that falls due in RUN or DRAIN with the drive IDLE begins a stroke: the ticket is STROKING with its fire and
close counts, the channel is open to the ticket's end count, and the drive starts with the lane's profile. A next head
is armed within the event when its planned fire count is ahead; when that count is already reached it is fired late at
once, marked LATE, and extends the stroke. The zeros of a drive's timers that do not run, and of the cap and duty kept
for no stroke, are the model's (log 33). -/
def Obligations.FireBeginsStroke : Prop :=
  ∀ (s : State) (l : Lane) (a : Armed) (t : Ticket) (own : Count), Running s → (s.mode = .run ∨ s.mode = .drain) →
    isReached s.bcu.count a.planned = true → (s.drive l).state = .idle →
    own = s.bcu.count + BitVec.ofNat 16 (t.span.getD 0) →
    (ArmedAlone s l a t →
      exec (.fireDue l) s = .next (((s.modTicket t.slot (fun _ => strokingNow s l t)).modChannel l (fun _ =>
        { armed := none, strokeEnd := some own })).modDrive l (fun _ => begun (s.lane l) .fire))) ∧
    (∀ n, ArmedBefore s l a t n →
      (isReached s.bcu.count (plannedNow s l n) = false →
        exec (.fireDue l) s = .next ((((s.modTicket t.slot (fun _ => strokingNow s l t)).modTicket n.slot (fun u =>
          { u with state := .armed, fireCount := some (plannedNow s l n) })).modChannel l (fun _ =>
            { armed := some { slot := n.slot, lead := s.lead l, planned := plannedNow s l n, lateLimit := none }
              strokeEnd := some own })).modDrive l (fun _ => begun (s.lane l) .fire))) ∧
      (∀ own', isReached s.bcu.count (plannedNow s l n) = true →
        own' = s.bcu.count + BitVec.ofNat 16 (n.span.getD 0) →
        exec (.fireDue l) s = .next ((((s.modTicket t.slot (fun _ => strokingNow s l t)).modTicket n.slot (fun _ =>
          strokingLate s l n)).modChannel l (fun _ =>
            { armed := none, strokeEnd := some (if 0 < signedDiff own own' then own' else own) })).modDrive l
              (fun _ => begun (s.lane l) .fire))))

/-- A fire that falls due with the drive in PULL or HOLD extends the stroke: an open channel keeps the later of its end
count and the ticket's; a channel no longer open opens again, and the end the drive held is withdrawn. -/
def Obligations.FireExtendsStroke : Prop :=
  ∀ (s : State) (l : Lane) (a : Armed) (t : Ticket) (own : Count), Running s → (s.mode = .run ∨ s.mode = .drain) →
    ArmedAlone s l a t → isReached s.bcu.count a.planned = true → Driven s l →
    own = s.bcu.count + BitVec.ofNat 16 (t.span.getD 0) →
    (∀ e, (s.channel l).strokeEnd = some e →
      exec (.fireDue l) s = .next ((s.modTicket t.slot (fun _ => strokingNow s l t)).modChannel l (fun _ =>
        { armed := none, strokeEnd := some (if 0 < signedDiff e own then own else e) }))) ∧
    ((s.channel l).strokeEnd = none →
      exec (.fireDue l) s = .next (((s.modTicket t.slot (fun _ => strokingNow s l t)).modChannel l (fun _ =>
        { armed := none, strokeEnd := some own })).modDrive l (fun d => { d with endHeld := false })))

/-- A fire that falls due with the drive in RECOVER is deferred: the ticket stays ARMED, marked DEFERRED, and the
channel keeps the late limit formed from the late allowance of the ticket's class. -/
def Obligations.FireDeferredInRecover : Prop :=
  ∀ (s : State) (l : Lane) (a : Armed) (t : Ticket) (c : WareClass), Running s →
    (s.mode = .run ∨ s.mode = .drain) → ArmedAlone s l a t → isReached s.bcu.count a.planned = true →
    (s.drive l).state = .recover → t.cls = some c →
    exec (.fireDue l) s =
      .next ((s.modTicket t.slot (fun u => { u with marks := { u.marks with deferred := true } })).modChannel l
        (fun ch => { ch with armed := some { a with
          lateLimit := some (t.nominal.getD 0 + BitVec.ofNat 16 (s.classRecord c).lateAllowance) } }))

/-- A fire that falls due in HOLD is missed: the channel is disarmed, the commitment released, the ticket RUNNING_OFF
with reason MISSED and its end window stored, its planned fire count kept, and the MISSED counter rises. A next head whose
planned fire count is already reached is missed in the same event, marked LATE. A fire count that is ahead is not due
(log 4). -/
def Obligations.FireMissedInHold : Prop :=
  ∀ (s : State) (l : Lane) (a : Armed) (t : Ticket), Running s →
    (ArmedAlone s l a t → InHold s → isReached s.bcu.count a.planned = true →
      isReached s.bcu.count (endBoundsOf s t).2 = false →
      exec (.fireDue l) s =
        .next { (s.modLane l (fun r => { r with committed := r.committed - 1 })).modChannel l
            (fun ch => { ch with armed := none }) with
          tt := { s.tt with
            belt := s.tt.belt.map (fun u => if u.slot = t.slot then ranOff s .missed t else u)
            runOffReasons := tableMod s.tt.runOffReasons 5 (fun n => min (n + 1) 65535) } }) ∧
    (∀ n, ArmedBefore s l a t n → InHold s → isReached s.bcu.count a.planned = true →
      isReached s.bcu.count (plannedNow s l n) = true → isReached s.bcu.count (endBoundsOf s t).2 = false →
      isReached s.bcu.count (endBoundsOf s n).2 = false →
      exec (.fireDue l) s =
        .next { (s.modLane l (fun r => { r with committed := r.committed - 1 - 1 })).modChannel l
            (fun ch => { ch with armed := none }) with
          tt := { s.tt with
            belt := s.tt.belt.map (fun u => if u.slot = t.slot then ranOff s .missed t
              else if u.slot = n.slot then
                { ranOff s .missed n with
                  fireCount := some (plannedNow s l n), marks := { n.marks with late := true } }
              else u)
            runOffReasons := tableMod s.tt.runOffReasons 5 (fun k => min (k + 2) 65535) } }) ∧
    (ArmedAlone s l a t → isReached s.bcu.count a.planned = false → exec (.fireDue l) s = .next s)

/-- The stroke end count reached: the lane's STROKING tickets become CONFIRMING and the channel is no longer open; a
drive in HOLD enters RECOVER with the lane's recovery time, a drive in PULL holds the end. The zeros of a drive's
timers that do not run, and of the cap and duty kept for no stroke, are the model's (log 33). -/
def Obligations.StrokeEndsAtItsCount : Prop :=
  ∀ (s : State) (l : Lane) (e : Count) (belt : List Ticket), Running s → (s.channel l).strokeEnd = some e →
    isReached s.bcu.count e = true →
    belt = s.tt.belt.map (fun t =>
      if t.state = .stroking ∧ t.dest = some (.lane l) then { t with state := .confirming } else t) →
    ((s.drive l).state = .hold → (s.lane l).recoveryTime ≠ 0 →
      exec (.strokeEndCountReached l) s =
        .next ((({ s with tt := { s.tt with belt := belt } } : State).modChannel l
          (fun ch => { ch with strokeEnd := none })).modDrive l
            (fun d => recovering (s.lane l).recoveryTime d.kind))) ∧
    ((s.drive l).state = .pull →
      exec (.strokeEndCountReached l) s =
        .next ((({ s with tt := { s.tt with belt := belt } } : State).modChannel l
          (fun ch => { ch with strokeEnd := none })).modDrive l (fun d => { d with endHeld := true }))) ∧
    ((s.drive l).state = .idle ∨ (s.drive l).state = .recover →
      exec (.strokeEndCountReached l) s =
        .next (({ s with tt := { s.tt with belt := belt } } : State).modChannel l
          (fun ch => { ch with strokeEnd := none })))

/-- The pull time elapsed: a drive whose end is not held enters HOLD and reads the lane's duty; one whose end is held
enters RECOVER. The zeros of a drive's timers that do not run, and of the cap and duty kept for no stroke, are the
model's (log 33). -/
def Obligations.PullTimeElapses : Prop :=
  ∀ (s : State) (l : Lane), Running s → (s.drive l).state = .pull → (s.drive l).pullLeft = 0 →
    ((s.drive l).endHeld = false →
      exec (.pullTimeElapsed l) s =
        .next (s.modDrive l (fun d => { d with state := .hold, duty := (s.lane l).holdDuty }))) ∧
    ((s.drive l).endHeld = true → (s.lane l).recoveryTime ≠ 0 →
      exec (.pullTimeElapsed l) s =
        .next (s.modDrive l (fun d => recovering (s.lane l).recoveryTime d.kind)))

/-- The on-time cap of a driven stroke: a fire stroke's STROKING tickets become CONFIRMING marked CAPPED and its
channel is no longer open; a test stroke marks nothing; the drive enters RECOVER. The test end of a test stroke: a
drive in HOLD enters RECOVER, a drive in PULL holds the end. The zeros of a drive's timers that do not run, and of the
cap and duty kept for no stroke, are the model's (log 33). -/
def Obligations.CapAndTestEndEndStrokes : Prop :=
  ∀ (s : State) (l : Lane), Running s →
    (Driven s l → (s.drive l).maxOn * 10000 ≤ (s.drive l).onTime → (s.lane l).recoveryTime ≠ 0 →
      ((s.drive l).kind = .fire →
        exec (.onTimeCap l) s =
          .next ((({ s with tt := { s.tt with belt := s.tt.belt.map (fun t =>
            if t.state = .stroking ∧ t.dest = some (.lane l) then
              { t with state := .confirming, marks := { t.marks with capped := true } } else t) } } :
            State).modChannel l (fun ch => { ch with strokeEnd := none })).modDrive l
              (fun _ => recovering (s.lane l).recoveryTime .fire))) ∧
      (∀ e, (s.drive l).kind = .test e →
        exec (.onTimeCap l) s = .next (s.modDrive l (fun _ => recovering (s.lane l).recoveryTime (.test e))))) ∧
    (∀ e, (s.drive l).kind = .test e → e ≤ (s.drive l).onTime → (s.drive l).endHeld = false →
      ((s.drive l).state = .hold → (s.lane l).recoveryTime ≠ 0 →
        exec (.testEnd l) s = .next (s.modDrive l (fun _ => recovering (s.lane l).recoveryTime (.test e)))) ∧
      ((s.drive l).state = .pull →
        exec (.testEnd l) s = .next (s.modDrive l (fun d => { d with endHeld := true }))))

/-- The recovery time elapsed: the drive is IDLE; an outstanding deferred fire is taken now in RUN or DRAIN with its
late limit ahead, and missed when the limit is reached or in HOLD. The zeros of a drive's timers that do not run, and
of the cap and duty kept for no stroke, are the model's (log 33). -/
def Obligations.RecoveryEndsAndDeferredFireIsJudged : Prop :=
  ∀ (s : State) (l : Lane), Running s → (s.drive l).state = .recover → (s.drive l).recoveryLeft = 0 →
    ((∀ a, (s.channel l).armed = some a → a.lateLimit = none) →
      exec (.recoveryTimeElapsed l) s = .next (s.modDrive l (fun _ => Drive.reset))) ∧
    (∀ a t limit, DeferredAlone s l a t limit →
      ((s.mode = .run ∨ s.mode = .drain) → isReached s.bcu.count limit = false →
        exec (.recoveryTimeElapsed l) s =
          .next (((s.modTicket t.slot (fun _ => strokingNow s l t)).modChannel l (fun _ =>
            { armed := none, strokeEnd := some (s.bcu.count + BitVec.ofNat 16 (t.span.getD 0)) })).modDrive l
              (fun _ => begun (s.lane l) .fire))) ∧
      ((InHold s ∨ ((s.mode = .run ∨ s.mode = .drain) ∧ isReached s.bcu.count limit = true)) →
        isReached s.bcu.count (endBoundsOf s t).2 = false →
        exec (.recoveryTimeElapsed l) s =
          .next { ((s.modLane l (fun r => { r with committed := r.committed - 1 })).modChannel l
              (fun ch => { ch with armed := none })).modDrive l (fun _ => Drive.reset) with
            tt := { s.tt with
              belt := s.tt.belt.map (fun u => if u.slot = t.slot then ranOff s .missed t else u)
              runOffReasons := tableMod s.tt.runOffReasons 5 (fun n => min (n + 1) 65535) } }))

/-- A carrier period ends: a pending select comes into force, the phase is 0, and every drive in HOLD reads its lane's
duty; the end of an active portion brings the phase there, where the lane's output is inactive. Either row may come at
an earlier phase: the part runs on to the moment (log 5), which touches neither the catalogue nor the geometry, and where
no own event falls due on the way, no ticket, lane or channel and no drive's state either. -/
def Obligations.CarrierPeriods : Prop :=
  ∀ s : State, Running s → s.carrier.phase < 800 * 2 ^ s.carrier.select →
    (∃ t, exec .carrierPeriodStart s = .next t ∧
      t.carrier = { select := s.carrier.pending.getD s.carrier.select, pending := none, phase := 0 } ∧
      t.cat = s.cat ∧ t.geo = s.geo ∧ t.pending = s.pending ∧
      (QuietFor s (800 * 2 ^ s.carrier.select - s.carrier.phase) →
        (∀ l, (t.drive l).state = (s.drive l).state ∧
          ((s.drive l).state = .hold → (t.drive l).duty = (s.lane l).holdDuty)) ∧
        t.tt = s.tt ∧ t.lanes = s.lanes ∧ t.channels = s.channels ∧ t.ind = s.ind ∧ t.em = s.em ∧ t.mc = s.mc)) ∧
    (∀ l portion, portion = (s.drive l).duty * (800 * 2 ^ s.carrier.select) / 64 → (s.drive l).state = .hold →
      s.carrier.phase < portion → portion < 800 * 2 ^ s.carrier.select →
      s.outputActive l = true ∧
      ∃ t, exec (.activePortionEnd l) s = .next t ∧ t.carrier = { s.carrier with phase := portion } ∧
        t.cat = s.cat ∧ t.geo = s.geo ∧ t.pending = s.pending ∧
        (QuietFor s (portion - s.carrier.phase) →
          t.outputActive l = false ∧ t.tt = s.tt ∧ t.lanes = s.lanes ∧ t.channels = s.channels ∧ t.ind = s.ind ∧
          t.em = s.em ∧ t.mc = s.mc))

/-- Table 8-2 and the polarity: the level of a lane's pin in each drive state; a duty of 0 leaves HOLD inactive, a duty
of 64 keeps it active through the period. -/
def Obligations.DriveOutputs : Prop :=
  ∀ (s : State) (l : Lane), Running s →
    ((s.drive l).state = .idle ∨ (s.drive l).state = .recover → s.outputActive l = false) ∧
    ((s.drive l).state = .pull → s.outputActive l = true) ∧
    ((s.drive l).state = .hold → (s.drive l).duty = 0 → s.outputActive l = false) ∧
    ((s.drive l).state = .hold → (s.drive l).duty = 64 → s.carrier.phase < 800 * 2 ^ s.carrier.select →
      s.outputActive l = true) ∧
    ((s.lane l).polarity = .activeHigh → s.drvLevel l = s.outputActive l) ∧
    ((s.lane l).polarity = .activeLow → s.drvLevel l = !s.outputActive l)

/-! ### Lanes and the end of the belt (chapters 6 and 9) -/

/-- A sighting at a lane with fired tickets: the oldest of the confirm list is retired SORTED in its outlet's row, the
lane's committed count falls, its failures become 0 and its fill rises. Shown where neither the lane nor the drain is
completed; the sighting of the last live ticket in DRAIN does the same and ends the drain in SETUP. -/
def Obligations.LaneSightingConfirmsOldest : Prop :=
  ∀ (s : State) (l : Lane) (t : Ticket) (rest : List Ticket), Attending s → SlotsDistinct s →
    s.confirmList l = t :: rest → Unheld s t →
    ((s.lane l).state ≠ .opened ∨ (s.lane l).fill + 1 < (s.lane l).capacity) →
    (s.lane l).fill < 999 →
    (DrainGoesOn s t →
      exec (.laneEyeLeadingEdge l) s = .next { s with
        tt := { s.tt with
          belt := without s t.slot
          tallies := tableMod s.tt.tallies (tallyIndex t.outlet .sorted) (fun n => min (n + 1) 65535) }
        lanes := tableMod s.lanes l (fun r =>
          { r with committed := r.committed - 1, failures := 0, fill := r.fill + 1 }) }) ∧
    (s.mode = .drain → s.tt.belt = [t] →
      ∃ u, exec (.laneEyeLeadingEdge l) s = .next u ∧ DrainEnded s u ∧
        u.tt = { s.tt with
          belt := []
          tallies := tableMod s.tt.tallies (tallyIndex t.outlet .sorted) (fun n => min (n + 1) 65535) } ∧
        u.lanes = tableMod s.lanes l (fun r =>
          { r with committed := r.committed - 1, failures := 0, fill := r.fill + 1 }) ∧
        u.em = s.em ∧ u.sli = s.sli)

/-- A sighting with the confirm list empty is a lane stray: the lane's fill and stray counter rise, and nothing else
changes, but that an OPEN lane whose fill reaches its capacity becomes FULL, sets LANE_FULL, and its route queue is
emptied by the pass. In SETUP leading edges, and in every mode trailing edges, change nothing. -/
def Obligations.LaneStraysFillTheRack : Prop :=
  ∀ (s : State) (l : Lane),
    (Attending s → s.confirmList l = [] →
      ((s.lane l).state ≠ .opened ∨ (s.lane l).fill + 1 < (s.lane l).capacity) → (s.lane l).fill < 999 →
      exec (.laneEyeLeadingEdge l) s = .next (s.modLane l (fun r =>
        { r with fill := r.fill + 1, strays := min (r.strays + 1) 65535 }))) ∧
    (Attending s → SlotsDistinct s → s.confirmList l = [] → (s.lane l).state = .opened →
      (s.lane l).capacity ≤ (s.lane l).fill + 1 → (s.lane l).fill < 999 →
      ∃ t, exec (.laneEyeLeadingEdge l) s = .next t ∧ (t.lane l).state = .full ∧
        (t.lane l).fill = (s.lane l).fill + 1 ∧ (t.lane l).capacity = (s.lane l).capacity ∧
        (t.lane l).strays = min ((s.lane l).strays + 1) 65535 ∧
        t.flagSet .laneFull = true ∧ t.routeQueue l = [] ∧ t.cat = s.cat ∧ t.geo = s.geo ∧ t.bcu = s.bcu ∧
        t.rli = s.rli ∧ t.em = s.em ∧ t.carrier = s.carrier) ∧
    (Running s → s.mode = .setup → exec (.laneEyeLeadingEdge l) s = .next s) ∧
    exec (.laneEyeTrailingEdge l) s = .next s

/-- A confirm window that closes unseen: the ticket becomes DOUBT with its end window stored, its commitment is
released, and unless it is joined the lane's failures rise; at the fault limit an OPEN or FULL lane becomes FAULTED,
sets LANE_FAULT and loses its route queue: a FULL lane with nothing else changed, an OPEN one with the pass over its
queue, after which it has the commitments of its confirm list alone. -/
def Obligations.ConfirmWindowClosesUnseen : Prop :=
  ∀ (s : State) (k : Slot) (t : Ticket) (l : Lane), Running s → SlotsDistinct s → s.nextClose? = some t → t.slot = k →
    t.dest = some (.lane l) → isReached s.bcu.count (endBoundsOf s t).2 = false →
    (t.joined = true →
      exec (.confirmWindowClose k) s = .next ((s.modLane l (fun r => { r with committed := r.committed - 1 })).modTicket
        k (fun _ => { t with state := .doubt, closeCount := none, endBounds := some (endBoundsOf s t) }))) ∧
    (t.joined = false → (s.lane l).failures < 15 →
      ((s.lane l).failures + 1 < s.geo.faultLimit ∨ (s.lane l).state = .closed ∨ (s.lane l).state = .faulted) →
      exec (.confirmWindowClose k) s = .next ((s.modLane l (fun r =>
        { r with committed := r.committed - 1, failures := r.failures + 1 })).modTicket
          k (fun _ => { t with state := .doubt, closeCount := none, endBounds := some (endBoundsOf s t) }))) ∧
    (t.joined = false → (s.lane l).failures < 15 → s.geo.faultLimit ≤ (s.lane l).failures + 1 →
      ((s.lane l).state = .opened ∨ (s.lane l).state = .full) →
      ∃ u, exec (.confirmWindowClose k) s = .next u ∧ (u.lane l).state = .faulted ∧
        (u.lane l).failures = (s.lane l).failures + 1 ∧ u.flagSet .laneFault = true ∧
        ((s.lane l).state = .opened → u.routeQueue l = []) ∧ u.cat = s.cat ∧ u.geo = s.geo ∧ u.bcu = s.bcu ∧
        ((∀ m a, (s.channel m).armed = some a → a.slot ≠ k) →
          u.ticketAt? k = some { t with state := .doubt, closeCount := none, endBounds := some (endBoundsOf s t) }) ∧
        (CommitmentsKept s → ((s.lane l).state = .full → s.routeQueue l = []) →
          (u.lane l).committed + 1 = (s.confirmList l).length) ∧
        ((s.lane l).state = .full → u = ((s.modLane l (fun r => { r with
          committed := r.committed - 1, failures := r.failures + 1, state := .faulted })).raise .laneFault).modTicket
            k (fun _ => { t with state := .doubt, closeCount := none, endBounds := some (endBoundsOf s t) })))

/-- An end sighting: the oldest ticket in end accounting whose window contains the present count is retired, RUN_OFF
from RUNNING_OFF and MISSORT from DOUBT, with no lane changed; in no window it is an end stray and sets END_STRAY. The end
sighting of the last live ticket in DRAIN ends the drain in SETUP. A leading edge in SETUP and a trailing edge in every mode change the eye state alone. -/
def Obligations.EndSightings : Prop :=
  ∀ s : State,
    (∀ (pre post : List Ticket) (t : Ticket) (w : Count × Count), Attending s → s.em.eye = .clear →
      SlotsDistinct s → s.tt.belt = pre ++ t :: post → (∀ u ∈ pre, u.endContains s.bcu.count = false) →
      t.endBounds = some w → 0 ≤ signedDiff w.1 s.bcu.count →
      0 ≤ signedDiff s.bcu.count w.2 → (t.state = .runningOff ∨ t.state = .doubt) → Unheld s t → DrainGoesOn s t →
      exec .endEyeLeadingEdge s = .next { s with
        em := { s.em with eye := .blocked }
        tt := { s.tt with
          belt := pre ++ post
          tallies := tableMod s.tt.tallies
            (tallyIndex t.outlet (if t.state = .doubt then .missort else .runOff)) (fun n => min (n + 1) 65535) } }) ∧
    (∀ (t : Ticket) (w : Count × Count), Running s → s.mode = .drain → s.em.eye = .clear → s.tt.belt = [t] →
      t.endBounds = some w → 0 ≤ signedDiff w.1 s.bcu.count → 0 ≤ signedDiff s.bcu.count w.2 →
      (t.state = .runningOff ∨ t.state = .doubt) → Unheld s t →
      ∃ u, exec .endEyeLeadingEdge s = .next u ∧ DrainEnded s u ∧ u.em = { s.em with eye := .blocked } ∧
        u.tt = { s.tt with
          belt := []
          tallies := tableMod s.tt.tallies
            (tallyIndex t.outlet (if t.state = .doubt then .missort else .runOff)) (fun n => min (n + 1) 65535) } ∧
        u.lanes = s.lanes ∧ u.sli = s.sli) ∧
    (Attending s → s.em.eye = .clear → (∀ u ∈ s.tt.belt, u.endContains s.bcu.count = false) →
      exec .endEyeLeadingEdge s = .next { s with
        em := { s.em with eye := .blocked, strays := min (s.em.strays + 1) 65535 }
        sli := { s.sli with flags := s.sli.flags ||| 512 } }) ∧
    (Running s → exec .endEyeTrailingEdge s = .next { s with em := { s.em with eye := .clear } }) ∧
    (Running s → s.mode = .setup → exec .endEyeLeadingEdge s = .next { s with em := { s.em with eye := .blocked } })

/-- An end window that expires unseen: a RUNNING_OFF ticket is retired LOST and no lane changes; a DOUBT ticket is
retired SORTED_UNSEEN and its lane's fill rises by the presumption, its failures and strays as they were. The
expiry of the last live ticket's window in DRAIN ends the drain in SETUP. -/
def Obligations.EndWindowExpires : Prop :=
  ∀ (s : State) (k : Slot) (t : Ticket) (w : Count × Count), Running s → s.ticketAt? k = some t →
    t.endBounds = some w → isReached s.bcu.count w.2 = true → Unheld s t →
    (t.state = .runningOff → DrainGoesOn s t →
      exec (.endWindowExpiry k) s = .next { s with tt := { s.tt with
        belt := without s k
        tallies := tableMod s.tt.tallies (tallyIndex t.outlet .lost) (fun n => min (n + 1) 65535) } }) ∧
    (∀ l, t.state = .doubt → t.dest = some (.lane l) → DrainGoesOn s t →
      ((s.lane l).state ≠ .opened ∨ (s.lane l).fill + 1 < (s.lane l).capacity) → (s.lane l).fill < 999 →
      exec (.endWindowExpiry k) s = .next { s with
        tt := { s.tt with
          belt := without s k
          tallies := tableMod s.tt.tallies (tallyIndex t.outlet .sortedUnseen) (fun n => min (n + 1) 65535) }
        lanes := tableMod s.lanes l (fun r => { r with fill := r.fill + 1 }) }) ∧
    (t.state = .runningOff → s.mode = .drain → s.tt.belt = [t] →
      ∃ u, exec (.endWindowExpiry k) s = .next u ∧ DrainEnded s u ∧
        u.tt = { s.tt with
          belt := []
          tallies := tableMod s.tt.tallies (tallyIndex t.outlet .lost) (fun n => min (n + 1) 65535) } ∧
        u.lanes = s.lanes ∧ u.em = s.em ∧ u.sli = s.sli) ∧
    (∀ l, t.state = .doubt → t.dest = some (.lane l) → s.mode = .drain → s.tt.belt = [t] →
      ((s.lane l).state ≠ .opened ∨ (s.lane l).fill + 1 < (s.lane l).capacity) → (s.lane l).fill < 999 →
      ∃ u, exec (.endWindowExpiry k) s = .next u ∧ DrainEnded s u ∧
        u.tt = { s.tt with
          belt := []
          tallies := tableMod s.tt.tallies (tallyIndex t.outlet .sortedUnseen) (fun n => min (n + 1) 65535) } ∧
        u.lanes = tableMod s.lanes l (fun r => { r with fill := r.fill + 1 }) ∧ u.em = s.em ∧ u.sli = s.sli)

/-! ### Modes and the guard (chapter 10) -/

/-- A guard opening: from RUN or DRAIN the mode is HOLD held from it, HOLD_ENTERED is set and no drive is in PULL or
HOLD; with no drive driven nothing else changes, and a single driven fire stroke is aborted; in HOLD the guard state
alone changes; in SETUP test strokes end. A guard closing changes the guard state alone. The zeros of a drive's timers
that do not run, and of the cap and duty kept for no stroke, are the model's (log 33). -/
def Obligations.GuardEdges : Prop :=
  ∀ s : State, Running s →
    (exec .guardClosing s = .next { s with mc := { s.mc with guard := .closed } }) ∧
    (InHold s → exec .guardOpening s = .next { s with mc := { s.mc with guard := .opened } }) ∧
    (s.mc.guard = .closed →
      (∀ h, s.mode = HeldFrom.mode h →
        (∃ t, exec .guardOpening s = .next t ∧ t.mc = { s.mc with mode := .hold h, guard := .opened } ∧
          t.flagSet .holdEntered = true ∧ (∀ l, ¬ Driven t l) ∧ t.cat = s.cat ∧ t.geo = s.geo ∧ t.bcu = s.bcu ∧
          t.rli = s.rli ∧ t.em = s.em ∧ t.carrier = s.carrier) ∧
        ((∀ l, ¬ Driven s l) → exec .guardOpening s = .next { s with
          mc := { s.mc with mode := .hold h, guard := .opened }
          sli := { s.sli with flags := s.sli.flags ||| 128 } }) ∧
        (∀ l, Driven s l → (∀ m, m ≠ l → ¬ Driven s m) → (s.lane l).recoveryTime ≠ 0 →
          exec .guardOpening s = .next { (s.modChannel l (fun ch => { ch with strokeEnd := none })).modDrive l
              (fun d => recovering (s.lane l).recoveryTime d.kind) with
            mc := { s.mc with mode := .hold h, guard := .opened }
            sli := { s.sli with flags := s.sli.flags ||| 128 }
            tt := { s.tt with belt := s.tt.belt.map (fun t =>
              if t.state = .stroking ∧ t.dest = some (.lane l) then
                { t with state := .confirming, marks := { t.marks with aborted := true } } else t) } })) ∧
      (s.mode = .setup → ∃ t, exec .guardOpening s = .next t ∧ t.mc = { s.mc with guard := .opened } ∧
        (∀ l, (s.drive l).inTest = true → ¬ Driven t l) ∧ (∀ l, (s.drive l).inTest = false → t.drive l = s.drive l) ∧
        t.tt = s.tt ∧ t.lanes = s.lanes ∧ t.channels = s.channels ∧ t.sli = s.sli ∧ t.cat = s.cat ∧ t.geo = s.geo)) ∧
    (Listening s → s.mode = .setup → s.mc.guard = .opened → ∀ lane duration : Byte,
      1 ≤ lane.toNat → lane.toNat ≤ 12 → exec (.testStroke lane duration) s = .next (answered s .state []))

/-! ### The supervisory line (sections 11.1 to 11.3) -/

/-- A marked character selects or deselects the station and cancels a reply that is due and not begun; a cancelled
reply to SOFT RESET brings the reset first; while SDE is asserted no character is taken. The zeros of timers that do
not run are the model's (log 33). -/
def Obligations.AddressCharacterSelects : Prop :=
  ∀ (s : State) (v : Byte), Running s →
    (s.sli.sending ≠ none → exec (.addressCharacter v) s = .next s) ∧
    (s.sli.sending = none → s.sli.reply = none →
      exec (.addressCharacter v) s = .next { s with sli := { s.sli with
        frame := if v = 0 ∨ v.toNat = s.sli.address.toNat then .selected else .unselected
        broadcast := decide (v = 0), gapTimer := 0 } }) ∧
    (∀ r, s.sli.sending = none → s.sli.reply = some r → r.softReset = false →
      exec (.addressCharacter v) s = .next { s with sli := { s.sli with
        reply := none, quietTimer := 0
        frame := if v = 0 ∨ v.toNat = s.sli.address.toNat then .selected else .unselected
        broadcast := decide (v = 0), gapTimer := 0 } }) ∧
    (∀ r, s.sli.sending = none → s.sli.reply = some r → r.softReset = true →
      ∃ t, exec (.addressCharacter v) s = .next t ∧ t.mode = .setup ∧ t.mc.cause = .soft ∧ t.tt.belt = [] ∧
        t.sli.reply = none ∧
        t.sli.frame = if v = 0 ∨ v.toNat = s.sli.address.toNat then .selected else .unselected)

/-- Data characters, under whichever of their rows they come (log 7): in SELECTED by station an unknown code is refused
UNKNOWN_COMMAND and a code with parameters is collected; in SELECTED by broadcast a code but HOLD and RESUME is passed
over from then on, the mark of the broadcast kept (log 30); a parameter joins the frame; a block count outside 1 to 64
is refused BAD_LENGTH; in UNSELECTED and IGNORING a data character restarts the quiet count alone. The zeros of timers
that do not run are the model's (log 33). -/
def Obligations.DataCharactersBuildFrames : Prop :=
  ∀ (s : State) (v : Byte) (i : Instr), Running s → s.sli.sending = none →
    i ∈ [.commandCharacter v, .unknownCommand v, .parameterCharacter v, .badLength v, .dataCharacterDuringWait v] →
    (s.sli.frame = .selected → s.sli.broadcast = false → s.sli.address ≠ 0 →
      (v.toNat ∉ [1, 2, 3, 4, 8, 9, 10, 11, 16, 17, 18, 19, 24, 25, 26, 27, 28, 32, 33, 34, 35, 36, 40, 41, 42, 43, 44,
        48, 49, 50, 51, 52, 53, 56] → exec i s = .next (answered s .unknownCommand [])) ∧
      (v.toNat ∈ [2, 3, 8, 16, 17, 18, 19, 24, 25, 26, 27, 28, 32, 33, 34, 35, 36, 40, 41, 42, 43, 48, 49, 50, 51] →
        exec i s = .next { s with sli := { s.sli with
          frame := .collecting v [], broadcast := false, gapTimer := 0, quietTimer := 0 } })) ∧
    (s.sli.frame = .selected → s.sli.broadcast = true → v.toNat ≠ 9 → v.toNat ≠ 10 →
      exec i s = .next { s with sli := { s.sli with frame := .ignoring, gapTimer := 0, quietTimer := 0 } }) ∧
    (∀ code n ps, s.sli.frame = .collecting code ps → frameShape code = some (.fixed n) → ps.length + 1 < n →
      exec i s = .next { s with sli := { s.sli with
        frame := .collecting code (ps ++ [v]), broadcast := false, gapTimer := 0, quietTimer := 0 } }) ∧
    (∀ code first, s.sli.frame = .collecting code [first] → s.sli.address ≠ 0 →
      code.toNat ∈ [17, 28, 32, 33, 34, 35, 40, 41, 42, 43] →
      (v.toNat = 0 ∨ 64 < v.toNat → exec i s = .next (answered s .badLength [])) ∧
      (1 ≤ v.toNat → v.toNat ≤ 64 → code.toNat ∈ [17, 32, 33, 34, 35] →
        exec i s = .next { s with sli := { s.sli with
          frame := .collecting code [first, v], broadcast := false, gapTimer := 0, quietTimer := 0 } })) ∧
    (s.sli.frame = .unselected ∨ s.sli.frame = .ignoring →
      exec i s = .next { s with sli := { s.sli with quietTimer := 0 } })

/-- A frame sent character by character comes to the same state as the row that stands for the complete frame (log 6):
five codes written out, then every code of R174 and R175 with its parameters, a block write of any length from 1 to 64.
HOLD and RESUME by broadcast are taken at their command character, whatever the strap address, even with a reply due,
which the address character cancels. -/
def Obligations.FramesFromCharacters : Prop :=
  (∀ s : State, Listening s →
    inTurn [.addressCharacter (s.sli.address.zeroExtend 8), .commandCharacter 0x01] s = exec .readStatus s ∧
    (∀ lo hi, inTurn [.addressCharacter (s.sli.address.zeroExtend 8), .commandCharacter 0x03, .parameterCharacter lo,
      .parameterCharacter hi] s = exec (.setMask (wordOf lo hi)) s) ∧
    (∀ k, inTurn [.addressCharacter (s.sli.address.zeroExtend 8), .commandCharacter 0x12, .parameterCharacter k] s =
      exec (.writeCarrier k) s) ∧
    (∀ slot gen, inTurn [.addressCharacter (s.sli.address.zeroExtend 8), .commandCharacter 0x30,
      .parameterCharacter slot, .parameterCharacter gen] s = exec (.readTicket slot gen) s) ∧
    (∀ (first : Byte) (records : List Byte), 1 ≤ records.length → records.length ≤ 64 →
      inTurn ([.addressCharacter (s.sli.address.zeroExtend 8), .commandCharacter 0x21, .parameterCharacter first,
        .parameterCharacter (BitVec.ofNat 8 records.length)] ++ records.map .parameterCharacter) s =
      exec (.writeForms first records) s)) ∧
  (∀ (s : State) (i : Instr) (code : Byte) (params : List Byte), Listening s → FrameOf i code params →
    inTurn (.addressCharacter (s.sli.address.zeroExtend 8) :: .commandCharacter code :: params.map .parameterCharacter) s =
      exec i s) ∧
  (∀ s : State, Running s → s.sli.sending = none →
    inTurn [.addressCharacter 0, .commandCharacter 0x09] s = exec (.hold true) s ∧
    inTurn [.addressCharacter 0, .commandCharacter 0x0A] s = exec (.resume true) s)

/-- A character in error is counted, makes the station UNSELECTED and cancels a reply that is due; a gap of more than
10 ms in SELECTED or COLLECTING makes it IGNORING with no reply and no counter, and in no other state is there one (log
4). The zeros of timers that do not run are the model's (log 33). -/
def Obligations.LineErrorsAndFrameGap : Prop :=
  ∀ s : State, Running s →
    (∀ c : LineChar, c.good = false → s.sli.sending = none → (∀ r, s.sli.reply = some r → r.softReset = false) →
      exec (.lineError c) s = .next { s with sli := { s.sli with
        lineErrors := min (s.sli.lineErrors + 1) 65535, frame := .unselected, broadcast := false, gapTimer := 0
        reply := none, quietTimer := if s.sli.reply = none then s.sli.quietTimer else 0 } }) ∧
    (s.sli.frame = .selected ∨ (∃ code ps, s.sli.frame = .collecting code ps) → 10000 < s.sli.gapTimer →
      exec .frameGapTimeout s = .next { s with sli := { s.sli with frame := .ignoring, gapTimer := 0 } }) ∧
    (s.sli.frame = .unselected ∨ s.sli.frame = .ignoring → exec .frameGapTimeout s = .next s)

/-- After two character times of quiet a reply that is due begins and SDE is asserted; it is sent as the marked header
40h + address, the status and the data; when its last stop bit has been sent SDE is released. The zeros of timers that
do not run are the model's (log 33). -/
def Obligations.RepliesBeginAndEnd : Prop :=
  ∀ (s : State) (r : Reply), Running s →
    (s.sli.reply = some r → 2 * (12 * lineBitTime s.sli.baud) ≤ s.sli.quietTimer →
      exec .replyStart s = .next { s with sli := { s.sli with
        reply := none, quietTimer := 0, sending := some r, sendTimer := 0 } }) ∧
    (s.sli.sending = some r → (r.data.length + 2) * (12 * lineBitTime s.sli.baud) ≤ s.sli.sendTimer →
      r.softReset = false →
      exec .replyEnd s = .next { s with sli := { s.sli with sending := none, sendTimer := 0 } }) ∧
    ((s.replyLine r).map LineChar.value =
      (0x40 + s.sli.address.zeroExtend 8) :: r.status.code :: r.data) ∧
    ((s.replyLine r).map LineChar.marked = true :: List.replicate (r.data.length + 1) false) ∧
    (∀ c ∈ s.replyLine r, c.good = true)

/-! ### Commands (sections 11.4 to 11.7) -/

/-- The read commands answer with the state as it stands, in the layouts of section 11.7 and log 14, and change nothing
else; a block read outside its range, one of no or more than 64 records, a handle out of range and one that names no
live ticket are refused; FIND TICKETS is not admitted in SETUP and is refused for an unknown scope and, with ROUTE and
CONFIRM, for a lane outside 1 to 12. -/
def Obligations.ReadsAnswerAndChangeNothing : Prop :=
  ∀ s : State, Listening s →
    (exec .readStatus s = .next (answered s .ok
      ([s.mode.code, s.mode.heldCode, guardCode s.mc.guard, s.bcu.motion.code, s.mc.cause.code]
        ++ wordChars (s.sli.flags.zeroExtend 16) ++ wordChars (s.sli.mask.zeroExtend 16)
        ++ [byteOf s.tt.belt.length, byteOf s.pendingSet.length] ++ wordChars s.bcu.count ++ natChars s.bcu.p8
        ++ natChars s.sli.lineErrors))) ∧
    (exec .readReaderCounters s = .next (answered s .ok
      (natChars s.rli.errors ++ natChars s.rli.strays ++ [byteOf s.ind.noReadStreak, byteOf s.rli.fifo.length]))) ∧
    (exec .readCatalogueSettings s = .next (answered s .ok
      [s.cat.residueLane.code, byteOf s.cat.defaultClass.val, byteOf s.cat.threshold])) ∧
    (exec .readTallies s = .next (answered s .ok
      ((s.tt.tallies.toList ++ s.tt.runOffReasons.toList ++ [s.tt.untracked]).flatMap natChars))) ∧
    (exec .readEndMonitor s = .next (answered s .ok
      ([eyeCode s.em.eye] ++ natChars s.em.strays
        ++ [byteOf (s.tt.belt.countP (fun t => t.state == .runningOff)),
          byteOf (s.tt.belt.countP (fun t => t.state == .doubt))]
        ++ natChars s.geo.endDistance ++ [byteOf s.geo.endTolerance]))) ∧
    (∀ first n : Byte, 1 ≤ n.toNat → n.toNat ≤ 64 →
      (first.toNat + n.toNat ≤ 256 → exec (.readPatterns first n) s = .next (answered s .ok
        ([first, n] ++ ((s.cat.patterns.toList.drop first.toNat).take n.toNat).flatMap PatternEntry.chars))) ∧
      (first.toNat + n.toNat ≤ 64 → exec (.readForms first n) s = .next (answered s .ok
        ([first, n] ++ ((s.cat.forms.toList.drop first.toNat).take n.toNat).flatMap formChars))) ∧
      (first.toNat + n.toNat ≤ 8 → exec (.readClasses first n) s = .next (answered s .ok
        ([first, n] ++ ((s.cat.classes.toList.drop first.toNat).take n.toNat).flatMap ClassRecord.chars))) ∧
      (first.toNat + n.toNat ≤ 64 → exec (.readRoutes first n) s = .next (answered s .ok
        ([first, n] ++ ((s.cat.routes.toList.drop first.toNat).take n.toNat).map Dest.code))) ∧
      (1 ≤ first.toNat → first.toNat + n.toNat ≤ 13 → exec (.readLanes first n) s = .next (answered s .ok
        ([first, n] ++ ((allLanes.drop (first.toNat - 1)).take n.toNat).flatMap s.laneRecordChars))) ∧
      (256 < first.toNat + n.toNat → exec (.readPatterns first n) s = .next (answered s .badParam [])) ∧
      (64 < first.toNat + n.toNat → exec (.readForms first n) s = .next (answered s .badParam []) ∧
        exec (.readRoutes first n) s = .next (answered s .badParam [])) ∧
      (8 < first.toNat + n.toNat → exec (.readClasses first n) s = .next (answered s .badParam [])) ∧
      (first.toNat = 0 ∨ 13 < first.toNat + n.toNat →
        exec (.readLanes first n) s = .next (answered s .badParam []))) ∧
    (∀ first n : Byte, n.toNat = 0 ∨ 64 < n.toNat →
      ∀ i ∈ [Instr.readPatterns first n, .readForms first n, .readClasses first n, .readRoutes first n,
        .readLanes first n], exec i s = .next (answered s .badLength [])) ∧
    (∀ (slot gen : Byte) (t : Ticket), SlotsDistinct s → t ∈ s.tt.belt → t.slot.val = slot.toNat →
      t.generation.toNat = gen.toNat →
      exec (.readTicket slot gen) s = .next (answered s .ok (s.ticketChars t))) ∧
    (∀ slot gen : Byte, slot.toNat ≤ 127 → gen.toNat ≤ 15 →
      (∀ t ∈ s.tt.belt, t.slot.val = slot.toNat → t.generation.toNat ≠ gen.toNat) →
      exec (.readTicket slot gen) s = .next (answered s .stale [])) ∧
    (∀ slot gen : Byte, 127 < slot.toNat ∨ 15 < gen.toNat →
      exec (.readTicket slot gen) s = .next (answered s .badParam [])) ∧
    (∀ scope lane skip : Byte,
      (s.mode ≠ .setup →
        (4 < scope.toNat ∨ ((scope.toNat = 2 ∨ scope.toNat = 3) ∧ (lane.toNat = 0 ∨ 12 < lane.toNat))) →
        exec (.findTickets scope lane skip) s = .next (answered s .badParam [])) ∧
      (s.mode = .setup → exec (.findTickets scope lane skip) s = .next (answered s .notInMode [])) ∧
      (∀ ts, s.mode ≠ .setup → s.scope? scope lane = some ts →
        exec (.findTickets scope lane skip) s = .next (answered s .ok
          ([byteOf ts.length, byteOf ((ts.drop skip.toNat).take 16).length]
            ++ ((ts.drop skip.toNat).take 16).flatMap
              (fun t => [byteOf t.slot.val, byteOf t.generation.toNat])))))

/-- ACK ATTENTION clears the flags it names and leaves the others; SET MASK makes its parameter the mask; both are taken
in every mode with reply OK, bits 10 to 15 unexamined; an event and an acknowledgement of its flag act in the order
taken; a flag that the mask disables is set and returned by READ STATUS all the same, and ATTN follows flags and
mask. -/
def Obligations.AttentionAcknowledgedAndMasked : Prop :=
  (∀ (s : State) (w : Word), Listening s →
    exec (.ackAttention w) s =
      .next (answered { s with sli := { s.sli with flags := s.sli.flags &&& ~~~(w.truncate 10) } } .ok
        (wordChars ((s.sli.flags &&& ~~~(w.truncate 10)).zeroExtend 16))) ∧
    exec (.setMask w) s = .next (answered { s with sli := { s.sli with mask := w.truncate 10 } } .ok
      (wordChars ((w.truncate 10 : BitVec 10).zeroExtend 16)))) ∧
  (∀ (s : State) (f : Flag) (w : Word), w.getLsbD f.index = true →
    ((s.raise f).acknowledge w).flagSet f = false ∧ ((s.acknowledge w).raise f).flagSet f = true ∧
    (∀ g, g ≠ f → (s.raise f).flagSet g = s.flagSet g)) ∧
  (∀ (s : State) (f : Flag), Running s → s.flagSet f = true → s.sli.mask.getLsbD f.index = true → s.attnLevel = false) ∧
  (∀ s : State, (∀ f : Flag, s.flagSet f = true → s.sli.mask.getLsbD f.index = false) → s.attnLevel = true) ∧
  (∀ (s : State) (f : Flag), (s.raise f).flagSet f = true) ∧
  (∀ s : State, Listening s → ∃ before after : List Byte, before.length = 5 ∧
    exec .readStatus s = .next (answered s .ok (before ++ wordChars (s.sli.flags.zeroExtend 16) ++ after)))

/-- Table 10-3: SET MODE but from SETUP to RUN. SETUP taken in HOLD flushes the table, every live ticket tallied FLUSHED
and the other columns kept, and changes no lane but its committed count; the diverters, still in HOLD, stay so, and the ticket under
the eye, live before, is there no more. -/
def Obligations.SetModeTable : Prop :=
  ∀ s : State, Listening s →
    (s.mode = .setup →
      exec (.setMode 0) s = .next (answered s .ok [0, 0xFF]) ∧
      exec (.setMode 2) s = .next (answered s .state [0, 0xFF])) ∧
    (s.mode = .run →
      exec (.setMode 0) s = .next (answered s .state [1, 0xFF]) ∧
      exec (.setMode 1) s = .next (answered s .ok [1, 0xFF]) ∧
      (s.tt.belt ≠ [] → exec (.setMode 2) s =
        .next (answered { s with mc := { s.mc with mode := .drain } } .ok [2, 0xFF])) ∧
      (s.tt.belt = [] → (∀ l, ¬ Driven s l) → exec (.setMode 2) s =
        .next (answered { s with mc := { s.mc with mode := .setup } } .ok [0, 0xFF]))) ∧
    (s.mode = .drain →
      exec (.setMode 0) s = .next (answered s .state [2, 0xFF]) ∧
      exec (.setMode 1) s = .next (answered { s with mc := { s.mc with mode := .run } } .ok [1, 0xFF]) ∧
      exec (.setMode 2) s = .next (answered s .ok [2, 0xFF])) ∧
    (∀ h, s.mode = .hold h →
      exec (.setMode 1) s = .next (answered s .state [3, h.mode.code]) ∧
      exec (.setMode 2) s = .next (answered s .state [3, h.mode.code]) ∧
      ∃ t, exec (.setMode 0) s = .next t ∧ t.mode = .setup ∧ t.tt.belt = [] ∧ FlushTallied s t ∧
        t.tt.runOffReasons = s.tt.runOffReasons ∧ t.tt.untracked = s.tt.untracked ∧
        (DivertersStill s → ∀ l, ¬ Driven t l) ∧
        (∀ l, t.lane l = { s.lane l with committed := (t.lane l).committed }) ∧
        (CommitmentsKept s → ∀ l, (t.lane l).committed = 0) ∧ t.sli.reply = some { status := .ok, data := [0, 0xFF] } ∧
        t.ind.nextTag = s.ind.nextTag ∧ t.ind.noReadStreak = s.ind.noReadStreak ∧ (UnderEyeLive s → t.ind.underEye = none) ∧
        t.rli = s.rli ∧ t.cat = s.cat ∧ t.geo = s.geo ∧ t.bcu = s.bcu ∧ t.em = s.em ∧
        t.tt.generations = s.tt.generations) ∧
    (∀ code : Byte, 2 < code.toNat →
      exec (.setMode code) s = .next (answered s .badParam [s.mode.code, s.mode.heldCode]))

/-- SET MODE RUN in SETUP: with the five checks of Table 1-5 passed and the guard closed the mode is RUN and test
strokes end; with the guard open it is refused STATE; otherwise it is refused GEOMETRY, naming the first check that
fails and its lane beside the mode (in an order left open, log 13), and nothing changes. With the end distance in its
range one of the two holds. -/
def Obligations.SetModeRunChecksGeometry : Prop :=
  ∀ s : State, Listening s → s.mode = .setup →
    (GeometryPasses s → s.mc.guard = .closed →
      (∃ t, exec (.setMode 1) s = .next t ∧ t.mode = .run ∧ (∀ l, (s.drive l).inTest = true → ¬ Driven t l) ∧
        t.sli.reply = some { status := .ok, data := [1, 0xFF] } ∧ t.tt = s.tt ∧ t.lanes = s.lanes ∧
        t.channels = s.channels ∧ t.cat = s.cat ∧ t.geo = s.geo) ∧
      ((∀ l, (s.drive l).inTest = false) →
        exec (.setMode 1) s = .next (answered { s with mc := { s.mc with mode := .run } } .ok [1, 0xFF]))) ∧
    (GeometryPasses s → s.mc.guard = .opened → exec (.setMode 1) s = .next (answered s .state [0, 0xFF])) ∧
    (∀ check lane : Byte, GeometryFails s check.toNat lane.toNat →
      (exec (.setMode 1) s = .next (answered s .geometry [0, 0xFF, check, lane]) ∨
        exec (.setMode 1) s = .next (answered s .geometry [check, lane, 0, 0xFF]))) ∧
    (s.geo.endDistance ≤ 30000 → GeometryPasses s ∨ ∃ check lane : Byte, GeometryFails s check.toNat lane.toNat)

/-- HOLD and RESUME: HOLD enters HOLD from RUN and DRAIN, shown whole with no drive driven, is answered OK in HOLD and
refused STATE in SETUP; RESUME restores the mode held from with the guard closed, a restored DRAIN with an empty belt
list going on to SETUP, and is refused STATE with the guard open and in the other modes; by broadcast the same without
reply, what is not taken changing the frame state alone, and the mark of the broadcast cleared in each (log 30). Reaches
of the present count still outstanding are taken in HOLD first, so a fire whose count HOLD has seen reached is missed
though RESUME follows at once: the mode is restored in any case, shown whole with no reach outstanding, for a due fire
alone, and for a P8 capture alone (log 11) that finds the armed ticket's new planned fire count reached. -/
def Obligations.HoldAndResume : Prop :=
  ∀ s : State, Listening s →
    (s.mode = .setup → exec (.hold false) s = .next (answered s .state [0, 0xFF]) ∧
      exec (.resume false) s = .next (answered s .state [0, 0xFF]) ∧ exec (.hold true) s = .next (unanswered s) ∧
      exec (.resume true) s = .next (unanswered s)) ∧
    (∀ h : HeldFrom, s.mode = h.mode →
      exec (.resume false) s = .next (answered s .state [h.mode.code, 0xFF]) ∧
      exec (.resume true) s = .next (unanswered s) ∧
      (∃ t, exec (.hold false) s = .next t ∧ t.mode = .hold h ∧ t.flagSet .holdEntered = true ∧ (∀ l, ¬ Driven t l) ∧
        t.sli.reply = some { status := .ok, data := [3, h.mode.code] }) ∧
      ((∀ l, ¬ Driven s l) →
        exec (.hold false) s = .next (answered { s with
          mc := { s.mc with mode := .hold h }, sli := { s.sli with flags := s.sli.flags ||| 128 } } .ok
            [3, h.mode.code]) ∧
        exec (.hold true) s = .next (unanswered { s with
          mc := { s.mc with mode := .hold h }, sli := { s.sli with flags := s.sli.flags ||| 128 } }))) ∧
    (∀ h, s.mode = .hold h →
      exec (.hold false) s = .next (answered s .ok [3, h.mode.code]) ∧ exec (.hold true) s = .next (unanswered s) ∧
      (s.mc.guard = .opened → exec (.resume false) s = .next (answered s .state [3, h.mode.code]) ∧
        exec (.resume true) s = .next (unanswered s)) ∧
      (s.mc.guard = .closed → ∃ t, exec (.resume false) s = .next t ∧
        (t.mode = h.mode ∨ (h = .drain ∧ t.tt.belt = [] ∧ t.mode = .setup)) ∧
        t.sli.reply = some { status := .ok, data := [t.mode.code, 0xFF] } ∧ t.cat = s.cat ∧ t.geo = s.geo ∧
        t.bcu = { s.bcu with p8 := t.bcu.p8, capture := t.bcu.capture } ∧ (s.bcu.capture = none → t.bcu = s.bcu) ∧
        t.rli = s.rli ∧ t.em = s.em) ∧
      (s.mc.guard = .closed → ∀ l a t, ArmedAlone s l a t → isReached s.bcu.count a.planned = true →
        s.countDue = [.fire l] → isReached s.bcu.count (endBoundsOf s t).2 = false →
        exec (.resume false) s =
          .next (answered { (s.modLane l (fun r => { r with committed := r.committed - 1 })).modChannel l
              (fun ch => { ch with armed := none }) with
            mc := { s.mc with mode := h.mode }
            tt := { s.tt with
              belt := s.tt.belt.map (fun u => if u.slot = t.slot then ranOff s .missed t else u)
              runOffReasons := tableMod s.tt.runOffReasons 5 (fun n => min (n + 1) 65535) } } .ok
                [h.mode.code, 0xFF])) ∧
      (s.mc.guard = .closed → ∀ l a t v p lead planned, ArmedAlone s l a t → s.bcu.capture = some v →
        s.countDue = [.capture] → (∀ m, m ≠ l → (s.channel m).armed = none) →
        p = { s with bcu := { s.bcu with p8 := max 1 v, capture := none } } →
        lead = min ((16 * (s.lane l).latency + max 1 v) / (2 * max 1 v)) 255 →
        planned = t.nominal.getD 0 - BitVec.ofNat 16 lead → isReached s.bcu.count planned = true →
        isReached s.bcu.count (endBoundsOf s t).2 = false →
        exec (.resume false) s =
          .next (answered { (p.modLane l (fun r => { r with committed := r.committed - 1 })).modChannel l
              (fun ch => { ch with armed := none }) with
            mc := { s.mc with mode := h.mode }
            tt := { s.tt with
              belt := s.tt.belt.map (fun u => if u.slot = t.slot then
                { ranOff s .missed t with fireCount := some planned, marks := { t.marks with late := true } } else u)
              runOffReasons := tableMod s.tt.runOffReasons 5 (fun n => min (n + 1) 65535) } } .ok
                [h.mode.code, 0xFF])) ∧
      (s.mc.guard = .closed → s.countDue = [] → (h = .run ∨ s.tt.belt ≠ []) →
        exec (.resume false) s =
          .next (answered { s with mc := { s.mc with mode := h.mode } } .ok [h.mode.code, 0xFF]) ∧
        exec (.resume true) s = .next (unanswered { s with mc := { s.mc with mode := h.mode } })) ∧
      (s.mc.guard = .closed → s.countDue = [] → h = .drain → s.tt.belt = [] → (∀ l, ¬ Driven s l) →
        exec (.resume false) s =
          .next (answered { s with mc := { s.mc with mode := .setup } } .ok [0, 0xFF])))

/-- WRITE GEOMETRY: in SETUP with an exponent to 7 the six clamped values are applied together and the prescale
remainder cleared; shown where the new stop time has not passed. Otherwise it is refused and changes nothing. -/
def Obligations.WriteGeometryAppliesAndClamps : Prop :=
  ∀ (s : State) (r : GeometryRecord), Listening s →
    (s.mode ≠ .setup → exec (.writeGeometry r) s = .next (answered s .notInMode [])) ∧
    (s.mode = .setup → 7 < r.prescaleExponent.toNat → exec (.writeGeometry r) s = .next (answered s .badParam [])) ∧
    (∀ endDistance readWindow stop fault : Nat, s.mode = .setup → r.prescaleExponent.toNat ≤ 7 →
      endDistance = max 1 (min r.endDistance.toNat 30000) → readWindow = min r.readWindow.toNat 1023 →
      stop = max 1 r.stopTime.toNat → fault = max 1 (min r.faultLimit.toNat 15) →
      (s.bcu.motion = .stopped ∨ s.bcu.stopTimer < stop * 10000) →
      exec (.writeGeometry r) s = .next (answered { s with
          geo := ⟨r.prescaleExponent.toNat, endDistance, readWindow, r.endTolerance.toNat, stop, fault⟩
          bcu := { s.bcu with remainder := 0 } }
        (if endDistance = r.endDistance.toNat ∧ readWindow = r.readWindow.toNat ∧ stop = r.stopTime.toNat ∧
          fault = r.faultLimit.toNat then .ok else .clamped)
        ([r.prescaleExponent] ++ natChars endDistance ++ natChars readWindow
          ++ [r.endTolerance, byteOf stop, byteOf fault])))

/-- WRITE LANES: in SETUP a block within lanes 1 to 12 whose links and polarities are in range is applied together,
clamped; a lane written with distance 0 is CLOSED, every other state, and every capacity, fill, committed count, failure
count and stray counter is kept; outside SETUP and outside the range it is refused and changes nothing,
a block that runs past lane 12 naming its first index (the model's choice, log 31), one with a link above 12 or a
polarity above 1 the first such record. -/
def Obligations.WriteLanesConfigures : Prop :=
  ∀ (s : State) (first : Byte) (rs : List LaneWrite), Listening s → 1 ≤ rs.length → rs.length ≤ 64 →
    (s.mode ≠ .setup → exec (.writeLanes first rs) s = .next (answered s .notInMode [])) ∧
    (s.mode = .setup → (first.toNat = 0 ∨ 13 < first.toNat + rs.length) →
      exec (.writeLanes first rs) s = .next (answered s .badParam [first])) ∧
    (∀ (pre post : List LaneWrite) (w : LaneWrite), s.mode = .setup → 1 ≤ first.toNat →
      first.toNat + rs.length ≤ 13 → rs = pre ++ w :: post →
      (∀ x ∈ pre, x.overflow.toNat ≤ 12 ∧ x.polarity.toNat ≤ 1) → (12 < w.overflow.toNat ∨ 1 < w.polarity.toNat) →
      exec (.writeLanes first rs) s = .next (answered s .badParam [first + BitVec.ofNat 8 pre.length])) ∧
    (s.mode = .setup → 1 ≤ first.toNat → first.toNat + rs.length ≤ 13 →
      (∀ w ∈ rs, w.overflow.toNat ≤ 12 ∧ w.polarity.toNat ≤ 1) →
      ∃ (t : State) (status : Status),
        exec (.writeLanes first rs) s =
          .next (answered { s with lanes := t.lanes } status [first, BitVec.ofNat 8 rs.length]) ∧
        (status = .ok ∨ status = .clamped) ∧
        (status = .ok ↔ ∀ w ∈ rs, w.distance.toNat ≤ 30000 ∧ 1 ≤ w.confirmSpan.toNat ∧ w.confirmSpan.toNat ≤ 1023 ∧
          w.holdDuty.toNat ≤ 64 ∧ 1 ≤ w.maxOnTime.toNat) ∧
        (∀ l : Lane, (l.val + 1 < first.toNat ∨ first.toNat + rs.length ≤ l.val + 1) → t.lane l = s.lane l) ∧
        (∀ (l : Lane) (w : LaneWrite), first.toNat ≤ l.val + 1 → rs[l.val + 1 - first.toNat]? = some w →
          t.lane l = { s.lane l with
            state := if w.distance.toNat = 0 then .closed else (s.lane l).state
            distance := min w.distance.toNat 30000
            latency := w.latency.toNat
            confirmSpan := max 1 (min w.confirmSpan.toNat 1023)
            overflow := (t.lane l).overflow
            pullTime := w.pullTime.toNat
            holdDuty := min w.holdDuty.toNat 64
            maxOnTime := max 1 w.maxOnTime.toNat
            recoveryTime := w.recoveryTime.toNat
            polarity := if w.polarity.toNat = 0 then .activeHigh else .activeLow } ∧
          (t.lane l).overflow.number = w.overflow.toNat))

/-- SOFT RESET is answered first and resets nothing yet; WRITE CARRIER makes its value the pending select, in force
from the next period start, to which the part runs on from any phase (log 5); TEST STROKE makes its tests in turn and
begins a test stroke that touches no channel, ticket or lane record. The zeros of a drive's timers that do not run, and
of the cap and duty kept for no stroke, are the model's (log 33). -/
def Obligations.CarrierTestStrokeAndSoftReset : Prop :=
  ∀ s : State, Listening s →
    (exec .softReset s = .next { s with sli := { s.sli with
      frame := .ignoring, broadcast := false, gapTimer := 0
      reply := some { status := .ok, data := [], softReset := true }, quietTimer := 0 } }) ∧
    (∀ k : Byte,
      (s.mode ≠ .setup → exec (.writeCarrier k) s = .next (answered s .notInMode [])) ∧
      (s.mode = .setup → 7 < k.toNat → exec (.writeCarrier k) s = .next (answered s .badParam [])) ∧
      (s.mode = .setup → k.toNat ≤ 7 →
        exec (.writeCarrier k) s = .next (answered { s with carrier := { s.carrier with pending := some k.toNat } } .ok
          [byteOf s.carrier.select, k]) ∧
        (s.carrier.phase < 800 * 2 ^ s.carrier.select →
          ∃ t, inTurn [.writeCarrier k, .carrierPeriodStart] s = .next t ∧
            t.carrier = { select := k.toNat, pending := none, phase := 0 }))) ∧
    (∀ lane duration : Byte,
      (s.mode ≠ .setup → exec (.testStroke lane duration) s = .next (answered s .notInMode [])) ∧
      (s.mode = .setup → (lane.toNat = 0 ∨ 12 < lane.toNat) →
        exec (.testStroke lane duration) s = .next (answered s .badParam [])) ∧
      (∀ l : Lane, s.mode = .setup → l.val + 1 = lane.toNat →
        (s.mc.guard = .opened → exec (.testStroke lane duration) s = .next (answered s .state [])) ∧
        (s.mc.guard = .closed → (s.drive l).state ≠ .idle →
          exec (.testStroke lane duration) s = .next (answered s .busy [])) ∧
        (s.mc.guard = .closed → (s.drive l).state = .idle →
          exec (.testStroke lane duration) s =
            .next (answered (s.modDrive l (fun _ => begun (s.lane l) (.test (max 1 duration.toNat * 10000))))
              (if duration = 0 then .clamped else .ok) [lane, if duration = 0 then 1 else duration]))))

/-- OPEN LANE, CLOSE LANE and SET CAPACITY on a lane 1 to 12 and their refusal outside it: the lane's state, failures
and capacity as Tables of R99 to R101 give, LANE_FULL set on entering FULL, and a lane taken out of OPEN loses its route
queue. The pass, shown for CLOSE LANE with the one live ticket ARMED at the lane: with its overflow lane eligible the
ticket goes there with one hop more and its reason kept, its commitment moved, and is armed; where the links end, or the
sixth is used, it runs off with NO_LANE, its commitment released. -/
def Obligations.LaneCommandsChangeState : Prop :=
  ∀ (s : State) (lane : Byte), Listening s →
    ((lane.toNat = 0 ∨ 12 < lane.toNat) → ∀ cap : Word,
      exec (.openLane lane) s = .next (answered s .badParam []) ∧
      exec (.closeLane lane) s = .next (answered s .badParam []) ∧
      exec (.setCapacity lane cap) s = .next (answered s .badParam []) ∧
      exec (.rackExchanged lane) s = .next (answered s .badParam [])) ∧
    (∀ l : Lane, l.val + 1 = lane.toNat →
      ((s.lane l).distance = 0 → exec (.openLane lane) s = .next (answered s .lane (laneReply (s.lane l)))) ∧
      ((s.lane l).distance ≠ 0 → ((s.lane l).state = .opened ∨ (s.lane l).state = .full) →
        exec (.openLane lane) s = .next (answered s .ok (laneReply (s.lane l)))) ∧
      (∀ r, (s.lane l).distance ≠ 0 → ((s.lane l).state = .closed ∨ (s.lane l).state = .faulted) →
        ((s.lane l).fill < (s.lane l).capacity → r = { s.lane l with state := .opened, failures := 0 } →
          exec (.openLane lane) s = .next (answered (s.modLane l (fun _ => r)) .ok (laneReply r))) ∧
        ((s.lane l).capacity ≤ (s.lane l).fill → r = { s.lane l with state := .full, failures := 0 } →
          exec (.openLane lane) s =
            .next (answered ((s.modLane l (fun _ => r)).raise .laneFull) .ok (laneReply r)))) ∧
      ((s.lane l).state ≠ .opened → exec (.closeLane lane) s =
        .next (answered (s.modLane l (fun r => { r with state := .closed })) .ok
          (laneReply { s.lane l with state := .closed }))) ∧
      ((s.lane l).state = .opened → SlotsDistinct s → ∃ t, exec (.closeLane lane) s = .next t ∧
        t.lane l = { s.lane l with state := .closed, committed := (t.lane l).committed } ∧ t.routeQueue l = [] ∧
        t.sli.reply = some { status := .ok, data := laneReply (t.lane l) } ∧ t.cat = s.cat ∧ t.geo = s.geo ∧
        t.bcu = s.bcu) ∧
      (∀ (t : Ticket) (a : Armed) (c : WareClass) (r : Reason) (closed : LaneRecord), (s.lane l).state = .opened →
        s.tt.belt = [t] → t.state = .armed → t.dest = some (.lane l) → (s.channel l).armed = some a →
        a.slot = t.slot → t.cls = some c → t.reason = some r →
        closed = { s.lane l with state := .closed, committed := (s.lane l).committed - 1 } →
        (∀ (m : Lane) (planned : Count), (s.lane l).overflow = .lane m → m ≠ l → t.hops < 6 →
          s.eligible t c m = true → (s.channel m).armed = none →
          planned = s.nominalAt t c m - BitVec.ofNat 16 (s.lead m) → isReached s.bcu.count planned = false →
          exec (.closeLane lane) s = .next (answered { s with
            lanes := tableMod (tableMod s.lanes l (fun _ => closed)) m
              (fun x => { x with committed := x.committed + 1 })
            channels := tableMod (tableMod s.channels l (fun ch => { ch with armed := none })) m (fun ch => { ch with
              armed := some { slot := t.slot, lead := s.lead m, planned := planned, lateLimit := none } })
            tt := { s.tt with belt := [{ t with
              dest := some (.lane m), hops := t.hops + 1, joined := false
              nominal := some (s.nominalAt t c m), span := some (spanOf s t c), fireCount := some planned
              endBounds := none }] } } .ok (laneReply closed))) ∧
        (∀ hops, ((hops = t.hops ∧ ((s.lane l).overflow = .runOff ∨ 6 ≤ t.hops)) ∨
            (hops = t.hops + 1 ∧ t.hops < 6 ∧ ∃ m, (s.lane l).overflow = .lane m ∧ m ≠ l ∧
              s.eligible t c m = false ∧ ((s.lane m).overflow = .runOff ∨ t.hops = 5))) →
          isReached s.bcu.count (endBoundsOf s t).2 = false →
          exec (.closeLane lane) s = .next (answered { s with
            lanes := tableMod s.lanes l (fun _ => closed)
            channels := tableMod s.channels l (fun ch => { ch with armed := none })
            tt := { s.tt with
              belt := [{ ranOff s .noLane t with hops := hops, fireCount := none }]
              runOffReasons := tableMod s.tt.runOffReasons 3 (fun n => min (n + 1) 65535) } } .ok
                (laneReply closed)))) ∧
      (∀ (cap : Word) (c : Nat) (status : Status), c = min cap.toNat 999 →
        status = (if cap.toNat ≤ 999 then .ok else .clamped) →
        (((s.lane l).state = .closed ∨ (s.lane l).state = .faulted ∨
            ((s.lane l).state = .opened ∧ (s.lane l).fill < c) ∨ ((s.lane l).state = .full ∧ c ≤ (s.lane l).fill)) →
          exec (.setCapacity lane cap) s = .next (answered (s.modLane l (fun r => { r with capacity := c })) status
            (laneReply { s.lane l with capacity := c }))) ∧
        ((s.lane l).state = .full → (s.lane l).fill < c →
          exec (.setCapacity lane cap) s =
            .next (answered (s.modLane l (fun r => { r with capacity := c, state := .opened })) status
              (laneReply { s.lane l with capacity := c, state := .opened }))) ∧
        ((s.lane l).state = .opened → c ≤ (s.lane l).fill → SlotsDistinct s →
          ∃ t, exec (.setCapacity lane cap) s = .next t ∧
            t.lane l = { s.lane l with state := .full, capacity := c, committed := (t.lane l).committed } ∧
            t.routeQueue l = [] ∧ t.flagSet .laneFull = true ∧
            t.sli.reply = some { status := status, data := laneReply (t.lane l) })))

/-- RACK EXCHANGED: in every mode the lane's fill is 0, a FULL lane with a capacity above 0 is OPEN, and nothing else of
the part changes, LANE_FULL among it; the reply is OK. -/
def Obligations.RackExchangedEmptiesTheRack : Prop :=
  ∀ (s : State) (lane : Byte) (l : Lane) (r : LaneRecord), Listening s → l.val + 1 = lane.toNat →
    r = { s.lane l with
      fill := 0
      state := if (s.lane l).state = .full ∧ 0 < (s.lane l).capacity then .opened else (s.lane l).state } →
    exec (.rackExchanged lane) s = .next (answered (s.modLane l (fun _ => r)) .ok (laneReply r))

/-- The catalogue's writes: a block within its table whose records are in range is applied together and nothing else
changes; one with a record out of range, or beyond the table, applies nothing and names the first that failed; the
settings are written together. That the reply of WRITE CATALOGUE SETTINGS carries the three values as applied (R175) and
no first index and count beside them, against R71's "also", is the model's reading (DEDUCED, log 14). -/
def Obligations.CatalogueWrites : Prop :=
  ∀ (s : State) (first : Byte), Listening s →
    (∀ rs : List PatternWrite, 1 ≤ rs.length → rs.length ≤ 64 →
      (256 < first.toNat + rs.length → exec (.writePatterns first rs) s = .next (answered s .badParam [first])) ∧
      (∀ (pre post : List PatternWrite) (w : PatternWrite), first.toNat + rs.length ≤ 256 → rs = pre ++ w :: post →
        (∀ x ∈ pre, x.state.toNat = 0 ∨ (x.state.toNat ≤ 2 ∧ x.owner.toNat < 8)) →
        (2 < w.state.toNat ∨ (w.state.toNat ≠ 0 ∧ 8 ≤ w.owner.toNat)) →
        exec (.writePatterns first rs) s = .next (answered s .badParam [first + BitVec.ofNat 8 pre.length])) ∧
      (first.toNat + rs.length ≤ 256 → (∀ w ∈ rs, w.state.toNat = 0 ∨ (w.state.toNat ≤ 2 ∧ w.owner.toNat < 8)) →
        ∃ v : Vector PatternEntry 256,
          exec (.writePatterns first rs) s = .next (answered { s with cat := { s.cat with patterns := v } } .ok
            [first, BitVec.ofNat 8 rs.length]) ∧
          (∀ i : Fin 256, (i.val < first.toNat ∨ first.toNat + rs.length ≤ i.val) →
            v.get i = s.cat.patterns.get i) ∧
          (∀ (i : Fin 256) (w : PatternWrite), first.toNat ≤ i.val → rs[i.val - first.toNat]? = some w →
            v.get i = if w.state.toNat = 0 then .unused
              else if w.state.toNat = 1 then .active (Fin.ofNat 8 w.owner.toNat)
              else .suspended (Fin.ofNat 8 w.owner.toNat)))) ∧
    (∀ rs : List Byte, 1 ≤ rs.length → rs.length ≤ 64 → 64 < first.toNat + rs.length →
      exec (.writeForms first rs) s = .next (answered s .badParam [first]) ∧
      exec (.writeRoutes first rs) s = .next (answered s .badParam [first])) ∧
    (∀ rs : List ClassWrite, 1 ≤ rs.length → rs.length ≤ 64 → 8 < first.toNat + rs.length →
      exec (.writeClasses first rs) s = .next (answered s .badParam [first])) ∧
    (∀ rs : List Byte, 1 ≤ rs.length → rs.length ≤ 64 → first.toNat + rs.length ≤ 64 →
      (∀ (pre post : List Byte) (b : Byte), rs = pre ++ b :: post → (∀ x ∈ pre, x.toNat < 8 ∨ x = 0xFF) →
        8 ≤ b.toNat → b ≠ 0xFF →
        exec (.writeForms first rs) s = .next (answered s .badParam [first + BitVec.ofNat 8 pre.length])) ∧
      ((∀ b ∈ rs, b.toNat < 8 ∨ b = 0xFF) →
        ∃ v : Vector (Option WareClass) 64,
          exec (.writeForms first rs) s = .next (answered { s with cat := { s.cat with forms := v } } .ok
            [first, BitVec.ofNat 8 rs.length]) ∧
          (∀ i : Fin 64, (i.val < first.toNat ∨ first.toNat + rs.length ≤ i.val) → v.get i = s.cat.forms.get i) ∧
          (∀ (i : Fin 64) (b : Byte), first.toNat ≤ i.val → rs[i.val - first.toNat]? = some b →
            v.get i = if b = 0xFF then none else some (Fin.ofNat 8 b.toNat))) ∧
      (∀ (pre post : List Byte) (b : Byte), rs = pre ++ b :: post → (∀ x ∈ pre, x.toNat ≤ 12) → 12 < b.toNat →
        exec (.writeRoutes first rs) s = .next (answered s .badParam [first + BitVec.ofNat 8 pre.length])) ∧
      ((∀ b ∈ rs, b.toNat ≤ 12) →
        ∃ v : Vector Dest 64,
          exec (.writeRoutes first rs) s = .next (answered { s with cat := { s.cat with routes := v } } .ok
            [first, BitVec.ofNat 8 rs.length]) ∧
          (∀ i : Fin 64, (i.val < first.toNat ∨ first.toNat + rs.length ≤ i.val) → v.get i = s.cat.routes.get i) ∧
          (∀ (i : Fin 64) (b : Byte), first.toNat ≤ i.val → rs[i.val - first.toNat]? = some b →
            (v.get i).number = b.toNat))) ∧
    (∀ rs : List ClassWrite, 1 ≤ rs.length → first.toNat + rs.length ≤ 8 →
      ∃ v : Vector ClassRecord 8,
        exec (.writeClasses first rs) s = .next (answered { s with cat := { s.cat with classes := v } }
          (if ∀ w ∈ rs, 1 ≤ w.minStroke.toNat ∧ w.minStroke.toNat ≤ 1023 then .ok else .clamped)
          [first, BitVec.ofNat 8 rs.length]) ∧
        (∀ i : Fin 8, (i.val < first.toNat ∨ first.toNat + rs.length ≤ i.val) → v.get i = s.cat.classes.get i) ∧
        (∀ (i : Fin 8) (w : ClassWrite), first.toNat ≤ i.val → rs[i.val - first.toNat]? = some w →
          v.get i = ⟨w.strikeOffset, w.sweep.toNat, max 1 (min w.minStroke.toNat 1023), w.guardGap.toNat,
            w.lateAllowance.toNat⟩)) ∧
    (∀ r : SettingsWrite,
      (12 < r.residueLane.toNat → exec (.writeCatalogueSettings r) s = .next (answered s .badParam [0])) ∧
      (r.residueLane.toNat ≤ 12 → 7 < r.defaultClass.toNat →
        exec (.writeCatalogueSettings r) s = .next (answered s .badParam [1])) ∧
      (∀ d : Dest, d.number = r.residueLane.toNat → r.defaultClass.toNat ≤ 7 →
        exec (.writeCatalogueSettings r) s = .next (answered { s with cat := { s.cat with
            residueLane := d, defaultClass := Fin.ofNat 8 r.defaultClass.toNat, threshold := min r.threshold.toNat 15 } }
          (if r.threshold.toNat ≤ 15 then .ok else .clamped)
          [r.residueLane, r.defaultClass, byteOf (min r.threshold.toNat 15)])))

/-- REDIRECT: its tests in turn, the CROWDED one shown for a ticket that follows one bound for another lane too closely
(an absent destination in a STATE refusal is sent as FFh, log 15). With every test passed it is taken, whatever else is
on the belt: to a lane, the ticket is routed there with reason REDIRECTED, hops 0 and no marks; to 0, it is RUNNING_OFF
unless its end window has closed already, and the reply says so in either case (log 20). Shown whole for a ticket alone on the belt: a RUNNING_OFF one sent to a lane is
armed there; an ARMED one sent to 0 is disarmed, its commitment released and the REDIRECTED counter raised; a RUNNING_OFF
one sent to 0 keeps its end window and is counted nowhere. -/
def Obligations.RedirectMovesTicket : Prop :=
  ∀ (s : State) (slot gen lane : Byte), Listening s →
    (s.mode = .setup → exec (.redirect slot gen lane) s = .next (answered s .notInMode [])) ∧
    (s.mode ≠ .setup → (127 < slot.toNat ∨ 15 < gen.toNat ∨ 12 < lane.toNat) →
      exec (.redirect slot gen lane) s = .next (answered s .badParam [])) ∧
    (s.mode ≠ .setup → slot.toNat ≤ 127 → gen.toNat ≤ 15 → lane.toNat ≤ 12 →
      (∀ t ∈ s.tt.belt, t.slot.val = slot.toNat → t.generation.toNat ≠ gen.toNat) →
      exec (.redirect slot gen lane) s = .next (answered s .stale [])) ∧
    (∀ (t : Ticket) (target : Dest), s.mode ≠ .setup → SlotsDistinct s → t ∈ s.tt.belt → t.slot.val = slot.toNat →
      t.generation.toNat = gen.toNat → target.number = lane.toNat →
      (t.state = .stroking ∨ t.state = .confirming ∨ t.state = .doubt ∨ t.state = .pendingRead →
        exec (.redirect slot gen lane) s =
          .next (answered s .state [t.state.code, (t.dest.map Dest.code).getD 0xFF])) ∧
      (∀ l a limit, DeferredAlone s l a t limit →
        exec (.redirect slot gen lane) s = .next (answered s .state [t.state.code, byteOf (l.val + 1)])) ∧
      (Redirectable s t →
        (s.targetEligible t target = false → exec (.redirect slot gen lane) s = .next (answered s .lane [])) ∧
        (s.targetEligible t target = true → s.redirectSplits t target = true →
          exec (.redirect slot gen lane) s = .next (answered s .crowded [])) ∧
        (∀ l m x, target = .lane l → s.tt.belt = [x, t] → (x.state = .routed ∨ x.state = .armed) →
          x.dest = some (.lane m) → m ≠ l → TooClose s x t → s.redirectSplits t target = true) ∧
        (s.targetEligible t target = true → s.redirectSplits t target = false →
          ∃ u, exec (.redirect slot gen lane) s = .next u ∧ u.cat = s.cat ∧ u.geo = s.geo ∧ u.bcu = s.bcu ∧
            u.rli = s.rli ∧ u.em = s.em ∧ u.carrier = s.carrier ∧
            (∀ l, target = .lane l → ∃ v ∈ u.tt.belt, v.slot = t.slot ∧ (v.state = .routed ∨ v.state = .armed) ∧
              v.dest = some (.lane l) ∧ v.reason = some .redirected ∧ v.hops = 0 ∧ v.marks = {} ∧
              v.nominal = some (s.nominalAt t (t.cls.getD 0) l) ∧ v.span = some (spanOf s t (t.cls.getD 0)) ∧
              v.endBounds = none ∧ u.sli.reply = some { status := .ok, data := [v.state.code, lane] }) ∧
            (target = .runOff → (t.state = .runningOff ↔ t.dest = some .runOff) → t.dest ≠ none →
              u.sli.reply = some { status := .ok, data := [6, 0] } ∧
              ∀ v ∈ u.tt.belt, v.slot = t.slot → v.state = .runningOff ∧ v.dest = some .runOff ∧
                v.reason = some .redirected ∧ v.hops = 0 ∧ v.marks = {} ∧ v.fireCount = none)))) ∧
    (∀ t, s.mode ≠ .setup → s.tt.belt = [t] → t.slot.val = slot.toNat → t.generation.toNat = gen.toNat →
      (∀ (l : Lane) (planned : Count), l.val + 1 = lane.toNat → t.state = .runningOff → t.dest = some .runOff →
        s.eligible t (t.cls.getD 0) l = true → (s.channel l).armed = none →
        planned = s.nominalAt t (t.cls.getD 0) l - BitVec.ofNat 16 (s.lead l) →
        exec (.redirect slot gen lane) s = .next (answered { s with
            lanes := tableMod s.lanes l (fun r => { r with committed := r.committed + 1 })
            channels := tableMod s.channels l (fun ch => { ch with
              armed := some { slot := t.slot, lead := s.lead l, planned := planned, lateLimit := none } })
            tt := { s.tt with belt := [{ t with
              state := .armed, dest := some (.lane l), reason := some .redirected, hops := 0, joined := false
              marks := {}, nominal := some (s.nominalAt t (t.cls.getD 0) l), fireCount := some planned
              span := some (spanOf s t (t.cls.getD 0)), endBounds := none }] } } .ok [2, lane])) ∧
      (∀ l a, lane = 0 → ArmedAlone s l a t → isReached s.bcu.count (endBoundsOf s t).2 = false →
        exec (.redirect slot gen lane) s = .next (answered { s with
          lanes := tableMod s.lanes l (fun r => { r with committed := r.committed - 1 })
          channels := tableMod s.channels l (fun ch => { ch with armed := none })
          tt := { s.tt with
            belt := [{ ranOff s .redirected t with hops := 0, marks := {}, fireCount := none }]
            runOffReasons := tableMod s.tt.runOffReasons 6 (fun n => min (n + 1) 65535) } } .ok [6, 0])) ∧
      (lane = 0 → t.state = .runningOff → t.dest = some .runOff →
        exec (.redirect slot gen lane) s = .next (answered { s with tt := { s.tt with
          belt := [{ t with reason := some .redirected, hops := 0, marks := {}, fireCount := none, joined := false }] } }
          .ok [6, 0])))

/-- PULL, its tests in turn: refused NOT_IN_MODE in SETUP, BAD_PARAM for a handle out of range, STALE for one that
names no live ticket, STATE for a STROKING ticket. Else it retires the named ticket PULLED in its outlet's row,
releasing the commitment of a ROUTED, ARMED or CONFIRMING one; an ARMED one is disarmed, with its deferred fire, and
the next head armed; a DOUBT one holds no commitment; one under the induction eye is there no more. The PULL of the
last live ticket in DRAIN, whatever its state but STROKING, ends the drain in SETUP. CLEAR TALLIES sets every tally,
run-off reason counter and untracked, reader, stray and line-error counter to 0 and nothing else. That the blocked
length of no ticket is 0 is the model's choice (log 33). -/
def Obligations.PullAndClearTallies : Prop :=
  ∀ s : State, Listening s →
    (∀ slot gen : Byte,
      (s.mode = .setup → exec (.pull slot gen) s = .next (answered s .notInMode [])) ∧
      (s.mode ≠ .setup → (127 < slot.toNat ∨ 15 < gen.toNat) →
        exec (.pull slot gen) s = .next (answered s .badParam [])) ∧
      (s.mode ≠ .setup → slot.toNat ≤ 127 → gen.toNat ≤ 15 →
        (∀ t ∈ s.tt.belt, t.slot.val = slot.toNat → t.generation.toNat ≠ gen.toNat) →
        exec (.pull slot gen) s = .next (answered s .stale []))) ∧
    (∀ (slot gen : Byte) (t : Ticket), s.mode ≠ .setup → SlotsDistinct s → t ∈ s.tt.belt → t.slot.val = slot.toNat →
      t.generation.toNat = gen.toNat →
      (t.state = .stroking → exec (.pull slot gen) s = .next (answered s .state [])) ∧
      (t.state ≠ .stroking → t.state ≠ .confirming → t.state ≠ .routed → t.state ≠ .armed → t.laneDest = none →
        Unheld s t → DrainGoesOn s t →
        exec (.pull slot gen) s = .next (answered { s with tt := { s.tt with
          belt := without s t.slot
          tallies := tableMod s.tt.tallies (tallyIndex t.outlet .pulled) (fun n => min (n + 1) 65535) } } .ok [])) ∧
      (∀ l, t.state = .confirming → t.dest = some (.lane l) → s.routeQueue l = [] → Unheld s t → DrainGoesOn s t →
        exec (.pull slot gen) s = .next (answered { s with
          tt := { s.tt with
            belt := without s t.slot
            tallies := tableMod s.tt.tallies (tallyIndex t.outlet .pulled) (fun n => min (n + 1) 65535) }
          lanes := tableMod s.lanes l (fun r => { r with committed := r.committed - 1 }) } .ok [])) ∧
      (∀ l, t.state = .doubt → t.dest = some (.lane l) → s.routeQueue l = [] → Unheld s t → DrainGoesOn s t →
        exec (.pull slot gen) s = .next (answered { s with tt := { s.tt with
          belt := without s t.slot
          tallies := tableMod s.tt.tallies (tallyIndex t.outlet .pulled) (fun n => min (n + 1) 65535) } } .ok [])) ∧
      (∀ l a head, t.state = .routed → t.dest = some (.lane l) → s.routeQueue l = [head, t] →
        (s.channel l).armed = some a → a.slot = head.slot → s.ind.underEye ≠ some t.slot → DrainGoesOn s t →
        exec (.pull slot gen) s = .next (answered { s with
          tt := { s.tt with
            belt := without s t.slot
            tallies := tableMod s.tt.tallies (tallyIndex t.outlet .pulled) (fun n => min (n + 1) 65535) }
          lanes := tableMod s.lanes l (fun r => { r with committed := r.committed - 1 }) } .ok [])) ∧
      (∀ l a, t.state = .armed → (s.channel l).armed = some a → a.slot = t.slot → s.routeQueue l = [t] →
        s.ind.underEye ≠ some t.slot → DrainGoesOn s t →
        exec (.pull slot gen) s = .next (answered { s with
          tt := { s.tt with
            belt := without s t.slot
            tallies := tableMod s.tt.tallies (tallyIndex t.outlet .pulled) (fun n => min (n + 1) 65535) }
          lanes := tableMod s.lanes l (fun r => { r with committed := r.committed - 1 })
          channels := tableMod s.channels l (fun ch => { ch with armed := none }) } .ok [])) ∧
      (∀ l a n planned, ArmedBefore s l a t n → planned = plannedNow s l n → isReached s.bcu.count planned = false →
        s.ind.underEye ≠ some t.slot →
        exec (.pull slot gen) s = .next (answered { s with
          tt := { s.tt with
            belt := (without s t.slot).map (fun u =>
              if u.slot = n.slot then { u with state := .armed, fireCount := some planned } else u)
            tallies := tableMod s.tt.tallies (tallyIndex t.outlet .pulled) (fun n => min (n + 1) 65535) }
          lanes := tableMod s.lanes l (fun r => { r with committed := r.committed - 1 })
          channels := tableMod s.channels l (fun ch => { ch with
            armed := some { slot := n.slot, lead := s.lead l, planned := planned, lateLimit := none } }) } .ok [])) ∧
      (s.mode = .drain → s.tt.belt = [t] → (t.state = .runningOff ∨ t.state = .doubt) → Unheld s t →
        ∃ u, exec (.pull slot gen) s = .next u ∧ DrainEnded s u ∧
          u.tt = { s.tt with
            belt := []
            tallies := tableMod s.tt.tallies (tallyIndex t.outlet .pulled) (fun n => min (n + 1) 65535) } ∧
          u.lanes = s.lanes ∧ u.em = s.em ∧ u.sli = (answered s .ok []).sli) ∧
      (t.state = .pendingRead → t.laneDest = none → s.ind.underEye = some t.slot → DrainGoesOn s t →
        exec (.pull slot gen) s = .next (answered { s with
          tt := { s.tt with
            belt := without s t.slot
            tallies := tableMod s.tt.tallies (tallyIndex t.outlet .pulled) (fun n => min (n + 1) 65535) }
          ind := { s.ind with underEye := none, blockedLength := 0 } } .ok [])) ∧
      (∀ tallies, s.mode = .drain → s.tt.belt = [t] →
        tallies = tableMod s.tt.tallies (tallyIndex t.outlet .pulled) (fun n => min (n + 1) 65535) →
        (∀ p, t.state = .pendingRead → t.laneDest = none →
          p = { s with ind := if s.ind.underEye = some t.slot then
            { s.ind with underEye := none, blockedLength := 0 } else s.ind } →
          ∃ u, exec (.pull slot gen) s = .next u ∧ DrainEnded p u ∧
            u.tt = { s.tt with belt := [], tallies := tallies } ∧ u.lanes = s.lanes ∧ u.em = s.em ∧
            u.sli = (answered s .ok []).sli) ∧
        (∀ l, (t.state = .routed ∨ t.state = .confirming) → t.dest = some (.lane l) → Unheld s t →
          ∃ u, exec (.pull slot gen) s = .next u ∧ DrainEnded s u ∧
            u.tt = { s.tt with belt := [], tallies := tallies } ∧
            u.lanes = tableMod s.lanes l (fun r => { r with committed := r.committed - 1 }) ∧ u.em = s.em ∧
            u.sli = (answered s .ok []).sli) ∧
        (∀ l a, t.state = .armed → t.dest = some (.lane l) → (s.channel l).armed = some a → a.slot = t.slot →
          s.ind.underEye ≠ some t.slot →
          ∃ u, exec (.pull slot gen) s = .next u ∧
            DrainEnded (s.modChannel l (fun ch => { ch with armed := none })) u ∧
            u.tt = { s.tt with belt := [], tallies := tallies } ∧
            u.lanes = tableMod s.lanes l (fun r => { r with committed := r.committed - 1 }) ∧ u.em = s.em ∧
            u.sli = (answered s .ok []).sli))) ∧
    (∃ t, exec .clearTallies s = .next (answered t .ok []) ∧
      t = { s with
        tt := { s.tt with tallies := t.tt.tallies, runOffReasons := t.tt.runOffReasons, untracked := 0 }
        rli := { s.rli with errors := 0, strays := 0 }
        em := { s.em with strays := 0 }
        sli := { s.sli with lineErrors := 0 }
        lanes := t.lanes } ∧
      (∀ i : Fin 63, t.tt.tallies.get i = 0) ∧ (∀ i : Fin 7, t.tt.runOffReasons.get i = 0) ∧
      (∀ l, t.lane l = { s.lane l with strays := 0 }))

/-! ### What every step keeps -/

/-- The state after reset meets every invariant stated below. -/
def Obligations.InvariantsHoldAtReset : Prop :=
  DivertersStill State.reset ∧ CommitmentsKept State.reset ∧ LanesSound State.reset ∧ QueuesOnlyWhileOpen State.reset ∧
    UnderEyeLive State.reset ∧ BeltInRange State.reset ∧ CountersInRange State.reset

/-- In SETUP and HOLD every diverter is still, except for a test stroke in SETUP, and with the guard open every diverter
is: every step keeps it, whatever command it takes and whatever the part does of its own accord. -/
def Obligations.StepKeepsDivertersStill : Prop :=
  ∀ s t : State, DivertersStill s → step s = .next t → DivertersStill t

/-- Every lane's committed count is the number of live tickets that hold a commitment there: every step keeps it. -/
def Obligations.StepKeepsCommitments : Prop :=
  ∀ s t : State, CommitmentsKept s → step s = .next t → CommitmentsKept t

/-- An OPEN lane is installed with its fill below its capacity, a FULL lane's fill is at its capacity or above: every
step keeps it. -/
def Obligations.StepKeepsLanesSound : Prop :=
  ∀ s t : State, LanesSound s → step s = .next t → LanesSound t

/-- A lane's route queue holds tickets only while the lane is OPEN, and in SETUP no ticket is live; the ticket under the
eye is live: every step keeps each. -/
def Obligations.StepKeepsQueuesOnlyWhileOpen : Prop :=
  (∀ s t : State, QueuesOnlyWhileOpen s → step s = .next t → QueuesOnlyWhileOpen t) ∧
  (∀ s t : State, UnderEyeLive s → step s = .next t → UnderEyeLive t)

/-- P8 lies within 1 to 65535, and the remainder, the block count, the block timer and every counter within their
ranges: every step keeps it. -/
def Obligations.StepKeepsRanges : Prop :=
  ∀ s t : State, BeltInRange s → CountersInRange s → step s = .next t → BeltInRange t ∧ CountersInRange t
end

