-- ==== Sys2Proof/Laws/State.lean ====
section
/-! SUPPORT. The small lemmas of State's named updates: each update leaves every field but its own as it was, and what an
access reads after an update. -/

namespace Sys2Proof.Machine

variable (s : State)

/-! ### raise -/

@[simp] theorem State.xtal_raise (f : Flag) : (s.raise f).xtal = s.xtal := rfl
@[simp] theorem State.inReset_raise (f : Flag) : (s.raise f).inReset = s.inReset := rfl
@[simp] theorem State.bcu_raise (f : Flag) : (s.raise f).bcu = s.bcu := rfl
@[simp] theorem State.geo_raise (f : Flag) : (s.raise f).geo = s.geo := rfl
@[simp] theorem State.ind_raise (f : Flag) : (s.raise f).ind = s.ind := rfl
@[simp] theorem State.rli_raise (f : Flag) : (s.raise f).rli = s.rli := rfl
@[simp] theorem State.tt_raise (f : Flag) : (s.raise f).tt = s.tt := rfl
@[simp] theorem State.cat_raise (f : Flag) : (s.raise f).cat = s.cat := rfl
@[simp] theorem State.lanes_raise (f : Flag) : (s.raise f).lanes = s.lanes := rfl
@[simp] theorem State.channels_raise (f : Flag) : (s.raise f).channels = s.channels := rfl
@[simp] theorem State.drives_raise (f : Flag) : (s.raise f).drives = s.drives := rfl
@[simp] theorem State.carrier_raise (f : Flag) : (s.raise f).carrier = s.carrier := rfl
@[simp] theorem State.em_raise (f : Flag) : (s.raise f).em = s.em := rfl
@[simp] theorem State.mc_raise (f : Flag) : (s.raise f).mc = s.mc := rfl
@[simp] theorem State.choices_raise (f : Flag) : (s.raise f).choices = s.choices := rfl
@[simp] theorem State.pending_raise (f : Flag) : (s.raise f).pending = s.pending := rfl
@[simp] theorem State.now_raise (f : Flag) : (s.raise f).now = s.now := rfl
@[simp] theorem State.mode_raise (f : Flag) : (s.raise f).mode = s.mode := rfl
@[simp] theorem State.lane_raise (f : Flag) (i : Lane) : (s.raise f).lane i = s.lane i := rfl
@[simp] theorem State.channel_raise (f : Flag) (i : Lane) : (s.raise f).channel i = s.channel i := rfl
@[simp] theorem State.drive_raise (f : Flag) (i : Lane) : (s.raise f).drive i = s.drive i := rfl
@[simp] theorem State.classRecord_raise (f : Flag) (wc : WareClass) : (s.raise f).classRecord wc = s.classRecord wc := rfl
@[simp] theorem State.ticketAt?_raise (f : Flag) (j : Slot) : (s.raise f).ticketAt? j = s.ticketAt? j := rfl
@[simp] theorem State.routeQueue_raise (f : Flag) (i : Lane) : (s.raise f).routeQueue i = s.routeQueue i := rfl
@[simp] theorem State.confirmList_raise (f : Flag) (i : Lane) : (s.raise f).confirmList i = s.confirmList i := rfl

/-! ### acknowledge -/

@[simp] theorem State.xtal_acknowledge (w : Word) : (s.acknowledge w).xtal = s.xtal := rfl
@[simp] theorem State.inReset_acknowledge (w : Word) : (s.acknowledge w).inReset = s.inReset := rfl
@[simp] theorem State.bcu_acknowledge (w : Word) : (s.acknowledge w).bcu = s.bcu := rfl
@[simp] theorem State.geo_acknowledge (w : Word) : (s.acknowledge w).geo = s.geo := rfl
@[simp] theorem State.ind_acknowledge (w : Word) : (s.acknowledge w).ind = s.ind := rfl
@[simp] theorem State.rli_acknowledge (w : Word) : (s.acknowledge w).rli = s.rli := rfl
@[simp] theorem State.tt_acknowledge (w : Word) : (s.acknowledge w).tt = s.tt := rfl
@[simp] theorem State.cat_acknowledge (w : Word) : (s.acknowledge w).cat = s.cat := rfl
@[simp] theorem State.lanes_acknowledge (w : Word) : (s.acknowledge w).lanes = s.lanes := rfl
@[simp] theorem State.channels_acknowledge (w : Word) : (s.acknowledge w).channels = s.channels := rfl
@[simp] theorem State.drives_acknowledge (w : Word) : (s.acknowledge w).drives = s.drives := rfl
@[simp] theorem State.carrier_acknowledge (w : Word) : (s.acknowledge w).carrier = s.carrier := rfl
@[simp] theorem State.em_acknowledge (w : Word) : (s.acknowledge w).em = s.em := rfl
@[simp] theorem State.mc_acknowledge (w : Word) : (s.acknowledge w).mc = s.mc := rfl
@[simp] theorem State.choices_acknowledge (w : Word) : (s.acknowledge w).choices = s.choices := rfl
@[simp] theorem State.pending_acknowledge (w : Word) : (s.acknowledge w).pending = s.pending := rfl
@[simp] theorem State.now_acknowledge (w : Word) : (s.acknowledge w).now = s.now := rfl
@[simp] theorem State.mode_acknowledge (w : Word) : (s.acknowledge w).mode = s.mode := rfl
@[simp] theorem State.lane_acknowledge (w : Word) (i : Lane) : (s.acknowledge w).lane i = s.lane i := rfl
@[simp] theorem State.channel_acknowledge (w : Word) (i : Lane) : (s.acknowledge w).channel i = s.channel i := rfl
@[simp] theorem State.drive_acknowledge (w : Word) (i : Lane) : (s.acknowledge w).drive i = s.drive i := rfl
@[simp] theorem State.classRecord_acknowledge (w : Word) (wc : WareClass) : (s.acknowledge w).classRecord wc = s.classRecord wc := rfl
@[simp] theorem State.ticketAt?_acknowledge (w : Word) (j : Slot) : (s.acknowledge w).ticketAt? j = s.ticketAt? j := rfl
@[simp] theorem State.routeQueue_acknowledge (w : Word) (i : Lane) : (s.acknowledge w).routeQueue i = s.routeQueue i := rfl
@[simp] theorem State.confirmList_acknowledge (w : Word) (i : Lane) : (s.acknowledge w).confirmList i = s.confirmList i := rfl

/-! ### setMaskTo -/

@[simp] theorem State.xtal_setMaskTo (w : Word) : (s.setMaskTo w).xtal = s.xtal := rfl
@[simp] theorem State.inReset_setMaskTo (w : Word) : (s.setMaskTo w).inReset = s.inReset := rfl
@[simp] theorem State.bcu_setMaskTo (w : Word) : (s.setMaskTo w).bcu = s.bcu := rfl
@[simp] theorem State.geo_setMaskTo (w : Word) : (s.setMaskTo w).geo = s.geo := rfl
@[simp] theorem State.ind_setMaskTo (w : Word) : (s.setMaskTo w).ind = s.ind := rfl
@[simp] theorem State.rli_setMaskTo (w : Word) : (s.setMaskTo w).rli = s.rli := rfl
@[simp] theorem State.tt_setMaskTo (w : Word) : (s.setMaskTo w).tt = s.tt := rfl
@[simp] theorem State.cat_setMaskTo (w : Word) : (s.setMaskTo w).cat = s.cat := rfl
@[simp] theorem State.lanes_setMaskTo (w : Word) : (s.setMaskTo w).lanes = s.lanes := rfl
@[simp] theorem State.channels_setMaskTo (w : Word) : (s.setMaskTo w).channels = s.channels := rfl
@[simp] theorem State.drives_setMaskTo (w : Word) : (s.setMaskTo w).drives = s.drives := rfl
@[simp] theorem State.carrier_setMaskTo (w : Word) : (s.setMaskTo w).carrier = s.carrier := rfl
@[simp] theorem State.em_setMaskTo (w : Word) : (s.setMaskTo w).em = s.em := rfl
@[simp] theorem State.mc_setMaskTo (w : Word) : (s.setMaskTo w).mc = s.mc := rfl
@[simp] theorem State.choices_setMaskTo (w : Word) : (s.setMaskTo w).choices = s.choices := rfl
@[simp] theorem State.pending_setMaskTo (w : Word) : (s.setMaskTo w).pending = s.pending := rfl
@[simp] theorem State.now_setMaskTo (w : Word) : (s.setMaskTo w).now = s.now := rfl
@[simp] theorem State.mode_setMaskTo (w : Word) : (s.setMaskTo w).mode = s.mode := rfl
@[simp] theorem State.lane_setMaskTo (w : Word) (i : Lane) : (s.setMaskTo w).lane i = s.lane i := rfl
@[simp] theorem State.channel_setMaskTo (w : Word) (i : Lane) : (s.setMaskTo w).channel i = s.channel i := rfl
@[simp] theorem State.drive_setMaskTo (w : Word) (i : Lane) : (s.setMaskTo w).drive i = s.drive i := rfl
@[simp] theorem State.classRecord_setMaskTo (w : Word) (wc : WareClass) : (s.setMaskTo w).classRecord wc = s.classRecord wc := rfl
@[simp] theorem State.ticketAt?_setMaskTo (w : Word) (j : Slot) : (s.setMaskTo w).ticketAt? j = s.ticketAt? j := rfl
@[simp] theorem State.routeQueue_setMaskTo (w : Word) (i : Lane) : (s.setMaskTo w).routeQueue i = s.routeQueue i := rfl
@[simp] theorem State.confirmList_setMaskTo (w : Word) (i : Lane) : (s.setMaskTo w).confirmList i = s.confirmList i := rfl

/-! ### modLane -/

@[simp] theorem State.xtal_modLane (l : Lane) (f : LaneRecord → LaneRecord) : (s.modLane l f).xtal = s.xtal := rfl
@[simp] theorem State.inReset_modLane (l : Lane) (f : LaneRecord → LaneRecord) : (s.modLane l f).inReset = s.inReset := rfl
@[simp] theorem State.bcu_modLane (l : Lane) (f : LaneRecord → LaneRecord) : (s.modLane l f).bcu = s.bcu := rfl
@[simp] theorem State.geo_modLane (l : Lane) (f : LaneRecord → LaneRecord) : (s.modLane l f).geo = s.geo := rfl
@[simp] theorem State.ind_modLane (l : Lane) (f : LaneRecord → LaneRecord) : (s.modLane l f).ind = s.ind := rfl
@[simp] theorem State.rli_modLane (l : Lane) (f : LaneRecord → LaneRecord) : (s.modLane l f).rli = s.rli := rfl
@[simp] theorem State.tt_modLane (l : Lane) (f : LaneRecord → LaneRecord) : (s.modLane l f).tt = s.tt := rfl
@[simp] theorem State.cat_modLane (l : Lane) (f : LaneRecord → LaneRecord) : (s.modLane l f).cat = s.cat := rfl
@[simp] theorem State.channels_modLane (l : Lane) (f : LaneRecord → LaneRecord) : (s.modLane l f).channels = s.channels := rfl
@[simp] theorem State.drives_modLane (l : Lane) (f : LaneRecord → LaneRecord) : (s.modLane l f).drives = s.drives := rfl
@[simp] theorem State.carrier_modLane (l : Lane) (f : LaneRecord → LaneRecord) : (s.modLane l f).carrier = s.carrier := rfl
@[simp] theorem State.em_modLane (l : Lane) (f : LaneRecord → LaneRecord) : (s.modLane l f).em = s.em := rfl
@[simp] theorem State.mc_modLane (l : Lane) (f : LaneRecord → LaneRecord) : (s.modLane l f).mc = s.mc := rfl
@[simp] theorem State.sli_modLane (l : Lane) (f : LaneRecord → LaneRecord) : (s.modLane l f).sli = s.sli := rfl
@[simp] theorem State.choices_modLane (l : Lane) (f : LaneRecord → LaneRecord) : (s.modLane l f).choices = s.choices := rfl
@[simp] theorem State.pending_modLane (l : Lane) (f : LaneRecord → LaneRecord) : (s.modLane l f).pending = s.pending := rfl
@[simp] theorem State.now_modLane (l : Lane) (f : LaneRecord → LaneRecord) : (s.modLane l f).now = s.now := rfl
@[simp] theorem State.mode_modLane (l : Lane) (f : LaneRecord → LaneRecord) : (s.modLane l f).mode = s.mode := rfl
@[simp] theorem State.channel_modLane (l : Lane) (f : LaneRecord → LaneRecord) (i : Lane) : (s.modLane l f).channel i = s.channel i := rfl
@[simp] theorem State.drive_modLane (l : Lane) (f : LaneRecord → LaneRecord) (i : Lane) : (s.modLane l f).drive i = s.drive i := rfl
@[simp] theorem State.classRecord_modLane (l : Lane) (f : LaneRecord → LaneRecord) (wc : WareClass) : (s.modLane l f).classRecord wc = s.classRecord wc := rfl
@[simp] theorem State.ticketAt?_modLane (l : Lane) (f : LaneRecord → LaneRecord) (j : Slot) : (s.modLane l f).ticketAt? j = s.ticketAt? j := rfl
@[simp] theorem State.routeQueue_modLane (l : Lane) (f : LaneRecord → LaneRecord) (i : Lane) : (s.modLane l f).routeQueue i = s.routeQueue i := rfl
@[simp] theorem State.confirmList_modLane (l : Lane) (f : LaneRecord → LaneRecord) (i : Lane) : (s.modLane l f).confirmList i = s.confirmList i := rfl

/-! ### modChannel -/

@[simp] theorem State.xtal_modChannel (l : Lane) (f : Channel → Channel) : (s.modChannel l f).xtal = s.xtal := rfl
@[simp] theorem State.inReset_modChannel (l : Lane) (f : Channel → Channel) : (s.modChannel l f).inReset = s.inReset := rfl
@[simp] theorem State.bcu_modChannel (l : Lane) (f : Channel → Channel) : (s.modChannel l f).bcu = s.bcu := rfl
@[simp] theorem State.geo_modChannel (l : Lane) (f : Channel → Channel) : (s.modChannel l f).geo = s.geo := rfl
@[simp] theorem State.ind_modChannel (l : Lane) (f : Channel → Channel) : (s.modChannel l f).ind = s.ind := rfl
@[simp] theorem State.rli_modChannel (l : Lane) (f : Channel → Channel) : (s.modChannel l f).rli = s.rli := rfl
@[simp] theorem State.tt_modChannel (l : Lane) (f : Channel → Channel) : (s.modChannel l f).tt = s.tt := rfl
@[simp] theorem State.cat_modChannel (l : Lane) (f : Channel → Channel) : (s.modChannel l f).cat = s.cat := rfl
@[simp] theorem State.lanes_modChannel (l : Lane) (f : Channel → Channel) : (s.modChannel l f).lanes = s.lanes := rfl
@[simp] theorem State.drives_modChannel (l : Lane) (f : Channel → Channel) : (s.modChannel l f).drives = s.drives := rfl
@[simp] theorem State.carrier_modChannel (l : Lane) (f : Channel → Channel) : (s.modChannel l f).carrier = s.carrier := rfl
@[simp] theorem State.em_modChannel (l : Lane) (f : Channel → Channel) : (s.modChannel l f).em = s.em := rfl
@[simp] theorem State.mc_modChannel (l : Lane) (f : Channel → Channel) : (s.modChannel l f).mc = s.mc := rfl
@[simp] theorem State.sli_modChannel (l : Lane) (f : Channel → Channel) : (s.modChannel l f).sli = s.sli := rfl
@[simp] theorem State.choices_modChannel (l : Lane) (f : Channel → Channel) : (s.modChannel l f).choices = s.choices := rfl
@[simp] theorem State.pending_modChannel (l : Lane) (f : Channel → Channel) : (s.modChannel l f).pending = s.pending := rfl
@[simp] theorem State.now_modChannel (l : Lane) (f : Channel → Channel) : (s.modChannel l f).now = s.now := rfl
@[simp] theorem State.mode_modChannel (l : Lane) (f : Channel → Channel) : (s.modChannel l f).mode = s.mode := rfl
@[simp] theorem State.lane_modChannel (l : Lane) (f : Channel → Channel) (i : Lane) : (s.modChannel l f).lane i = s.lane i := rfl
@[simp] theorem State.drive_modChannel (l : Lane) (f : Channel → Channel) (i : Lane) : (s.modChannel l f).drive i = s.drive i := rfl
@[simp] theorem State.classRecord_modChannel (l : Lane) (f : Channel → Channel) (wc : WareClass) : (s.modChannel l f).classRecord wc = s.classRecord wc := rfl
@[simp] theorem State.ticketAt?_modChannel (l : Lane) (f : Channel → Channel) (j : Slot) : (s.modChannel l f).ticketAt? j = s.ticketAt? j := rfl
@[simp] theorem State.routeQueue_modChannel (l : Lane) (f : Channel → Channel) (i : Lane) : (s.modChannel l f).routeQueue i = s.routeQueue i := rfl
@[simp] theorem State.confirmList_modChannel (l : Lane) (f : Channel → Channel) (i : Lane) : (s.modChannel l f).confirmList i = s.confirmList i := rfl

/-! ### modDrive -/

@[simp] theorem State.xtal_modDrive (l : Lane) (f : Drive → Drive) : (s.modDrive l f).xtal = s.xtal := rfl
@[simp] theorem State.inReset_modDrive (l : Lane) (f : Drive → Drive) : (s.modDrive l f).inReset = s.inReset := rfl
@[simp] theorem State.bcu_modDrive (l : Lane) (f : Drive → Drive) : (s.modDrive l f).bcu = s.bcu := rfl
@[simp] theorem State.geo_modDrive (l : Lane) (f : Drive → Drive) : (s.modDrive l f).geo = s.geo := rfl
@[simp] theorem State.ind_modDrive (l : Lane) (f : Drive → Drive) : (s.modDrive l f).ind = s.ind := rfl
@[simp] theorem State.rli_modDrive (l : Lane) (f : Drive → Drive) : (s.modDrive l f).rli = s.rli := rfl
@[simp] theorem State.tt_modDrive (l : Lane) (f : Drive → Drive) : (s.modDrive l f).tt = s.tt := rfl
@[simp] theorem State.cat_modDrive (l : Lane) (f : Drive → Drive) : (s.modDrive l f).cat = s.cat := rfl
@[simp] theorem State.lanes_modDrive (l : Lane) (f : Drive → Drive) : (s.modDrive l f).lanes = s.lanes := rfl
@[simp] theorem State.channels_modDrive (l : Lane) (f : Drive → Drive) : (s.modDrive l f).channels = s.channels := rfl
@[simp] theorem State.carrier_modDrive (l : Lane) (f : Drive → Drive) : (s.modDrive l f).carrier = s.carrier := rfl
@[simp] theorem State.em_modDrive (l : Lane) (f : Drive → Drive) : (s.modDrive l f).em = s.em := rfl
@[simp] theorem State.mc_modDrive (l : Lane) (f : Drive → Drive) : (s.modDrive l f).mc = s.mc := rfl
@[simp] theorem State.sli_modDrive (l : Lane) (f : Drive → Drive) : (s.modDrive l f).sli = s.sli := rfl
@[simp] theorem State.choices_modDrive (l : Lane) (f : Drive → Drive) : (s.modDrive l f).choices = s.choices := rfl
@[simp] theorem State.pending_modDrive (l : Lane) (f : Drive → Drive) : (s.modDrive l f).pending = s.pending := rfl
@[simp] theorem State.now_modDrive (l : Lane) (f : Drive → Drive) : (s.modDrive l f).now = s.now := rfl
@[simp] theorem State.mode_modDrive (l : Lane) (f : Drive → Drive) : (s.modDrive l f).mode = s.mode := rfl
@[simp] theorem State.lane_modDrive (l : Lane) (f : Drive → Drive) (i : Lane) : (s.modDrive l f).lane i = s.lane i := rfl
@[simp] theorem State.channel_modDrive (l : Lane) (f : Drive → Drive) (i : Lane) : (s.modDrive l f).channel i = s.channel i := rfl
@[simp] theorem State.classRecord_modDrive (l : Lane) (f : Drive → Drive) (wc : WareClass) : (s.modDrive l f).classRecord wc = s.classRecord wc := rfl
@[simp] theorem State.ticketAt?_modDrive (l : Lane) (f : Drive → Drive) (j : Slot) : (s.modDrive l f).ticketAt? j = s.ticketAt? j := rfl
@[simp] theorem State.routeQueue_modDrive (l : Lane) (f : Drive → Drive) (i : Lane) : (s.modDrive l f).routeQueue i = s.routeQueue i := rfl
@[simp] theorem State.confirmList_modDrive (l : Lane) (f : Drive → Drive) (i : Lane) : (s.modDrive l f).confirmList i = s.confirmList i := rfl

/-! ### setMode -/

@[simp] theorem State.xtal_setMode (m : Mode) : (s.setMode m).xtal = s.xtal := rfl
@[simp] theorem State.inReset_setMode (m : Mode) : (s.setMode m).inReset = s.inReset := rfl
@[simp] theorem State.bcu_setMode (m : Mode) : (s.setMode m).bcu = s.bcu := rfl
@[simp] theorem State.geo_setMode (m : Mode) : (s.setMode m).geo = s.geo := rfl
@[simp] theorem State.ind_setMode (m : Mode) : (s.setMode m).ind = s.ind := rfl
@[simp] theorem State.rli_setMode (m : Mode) : (s.setMode m).rli = s.rli := rfl
@[simp] theorem State.tt_setMode (m : Mode) : (s.setMode m).tt = s.tt := rfl
@[simp] theorem State.cat_setMode (m : Mode) : (s.setMode m).cat = s.cat := rfl
@[simp] theorem State.lanes_setMode (m : Mode) : (s.setMode m).lanes = s.lanes := rfl
@[simp] theorem State.channels_setMode (m : Mode) : (s.setMode m).channels = s.channels := rfl
@[simp] theorem State.drives_setMode (m : Mode) : (s.setMode m).drives = s.drives := rfl
@[simp] theorem State.carrier_setMode (m : Mode) : (s.setMode m).carrier = s.carrier := rfl
@[simp] theorem State.em_setMode (m : Mode) : (s.setMode m).em = s.em := rfl
@[simp] theorem State.sli_setMode (m : Mode) : (s.setMode m).sli = s.sli := rfl
@[simp] theorem State.choices_setMode (m : Mode) : (s.setMode m).choices = s.choices := rfl
@[simp] theorem State.pending_setMode (m : Mode) : (s.setMode m).pending = s.pending := rfl
@[simp] theorem State.now_setMode (m : Mode) : (s.setMode m).now = s.now := rfl
@[simp] theorem State.lane_setMode (m : Mode) (i : Lane) : (s.setMode m).lane i = s.lane i := rfl
@[simp] theorem State.channel_setMode (m : Mode) (i : Lane) : (s.setMode m).channel i = s.channel i := rfl
@[simp] theorem State.drive_setMode (m : Mode) (i : Lane) : (s.setMode m).drive i = s.drive i := rfl
@[simp] theorem State.classRecord_setMode (m : Mode) (wc : WareClass) : (s.setMode m).classRecord wc = s.classRecord wc := rfl
@[simp] theorem State.ticketAt?_setMode (m : Mode) (j : Slot) : (s.setMode m).ticketAt? j = s.ticketAt? j := rfl
@[simp] theorem State.routeQueue_setMode (m : Mode) (i : Lane) : (s.setMode m).routeQueue i = s.routeQueue i := rfl
@[simp] theorem State.confirmList_setMode (m : Mode) (i : Lane) : (s.setMode m).confirmList i = s.confirmList i := rfl

/-! ### modTicket -/

@[simp] theorem State.xtal_modTicket (k : Slot) (f : Ticket → Ticket) : (s.modTicket k f).xtal = s.xtal := rfl
@[simp] theorem State.inReset_modTicket (k : Slot) (f : Ticket → Ticket) : (s.modTicket k f).inReset = s.inReset := rfl
@[simp] theorem State.bcu_modTicket (k : Slot) (f : Ticket → Ticket) : (s.modTicket k f).bcu = s.bcu := rfl
@[simp] theorem State.geo_modTicket (k : Slot) (f : Ticket → Ticket) : (s.modTicket k f).geo = s.geo := rfl
@[simp] theorem State.ind_modTicket (k : Slot) (f : Ticket → Ticket) : (s.modTicket k f).ind = s.ind := rfl
@[simp] theorem State.rli_modTicket (k : Slot) (f : Ticket → Ticket) : (s.modTicket k f).rli = s.rli := rfl
@[simp] theorem State.cat_modTicket (k : Slot) (f : Ticket → Ticket) : (s.modTicket k f).cat = s.cat := rfl
@[simp] theorem State.lanes_modTicket (k : Slot) (f : Ticket → Ticket) : (s.modTicket k f).lanes = s.lanes := rfl
@[simp] theorem State.channels_modTicket (k : Slot) (f : Ticket → Ticket) : (s.modTicket k f).channels = s.channels := rfl
@[simp] theorem State.drives_modTicket (k : Slot) (f : Ticket → Ticket) : (s.modTicket k f).drives = s.drives := rfl
@[simp] theorem State.carrier_modTicket (k : Slot) (f : Ticket → Ticket) : (s.modTicket k f).carrier = s.carrier := rfl
@[simp] theorem State.em_modTicket (k : Slot) (f : Ticket → Ticket) : (s.modTicket k f).em = s.em := rfl
@[simp] theorem State.mc_modTicket (k : Slot) (f : Ticket → Ticket) : (s.modTicket k f).mc = s.mc := rfl
@[simp] theorem State.sli_modTicket (k : Slot) (f : Ticket → Ticket) : (s.modTicket k f).sli = s.sli := rfl
@[simp] theorem State.choices_modTicket (k : Slot) (f : Ticket → Ticket) : (s.modTicket k f).choices = s.choices := rfl
@[simp] theorem State.pending_modTicket (k : Slot) (f : Ticket → Ticket) : (s.modTicket k f).pending = s.pending := rfl
@[simp] theorem State.now_modTicket (k : Slot) (f : Ticket → Ticket) : (s.modTicket k f).now = s.now := rfl
@[simp] theorem State.mode_modTicket (k : Slot) (f : Ticket → Ticket) : (s.modTicket k f).mode = s.mode := rfl
@[simp] theorem State.lane_modTicket (k : Slot) (f : Ticket → Ticket) (i : Lane) : (s.modTicket k f).lane i = s.lane i := rfl
@[simp] theorem State.channel_modTicket (k : Slot) (f : Ticket → Ticket) (i : Lane) : (s.modTicket k f).channel i = s.channel i := rfl
@[simp] theorem State.drive_modTicket (k : Slot) (f : Ticket → Ticket) (i : Lane) : (s.modTicket k f).drive i = s.drive i := rfl
@[simp] theorem State.classRecord_modTicket (k : Slot) (f : Ticket → Ticket) (wc : WareClass) : (s.modTicket k f).classRecord wc = s.classRecord wc := rfl

/-! ### commit -/

@[simp] theorem State.xtal_commit (l : Lane) : (s.commit l).xtal = s.xtal := rfl
@[simp] theorem State.inReset_commit (l : Lane) : (s.commit l).inReset = s.inReset := rfl
@[simp] theorem State.bcu_commit (l : Lane) : (s.commit l).bcu = s.bcu := rfl
@[simp] theorem State.geo_commit (l : Lane) : (s.commit l).geo = s.geo := rfl
@[simp] theorem State.ind_commit (l : Lane) : (s.commit l).ind = s.ind := rfl
@[simp] theorem State.rli_commit (l : Lane) : (s.commit l).rli = s.rli := rfl
@[simp] theorem State.tt_commit (l : Lane) : (s.commit l).tt = s.tt := rfl
@[simp] theorem State.cat_commit (l : Lane) : (s.commit l).cat = s.cat := rfl
@[simp] theorem State.channels_commit (l : Lane) : (s.commit l).channels = s.channels := rfl
@[simp] theorem State.drives_commit (l : Lane) : (s.commit l).drives = s.drives := rfl
@[simp] theorem State.carrier_commit (l : Lane) : (s.commit l).carrier = s.carrier := rfl
@[simp] theorem State.em_commit (l : Lane) : (s.commit l).em = s.em := rfl
@[simp] theorem State.mc_commit (l : Lane) : (s.commit l).mc = s.mc := rfl
@[simp] theorem State.sli_commit (l : Lane) : (s.commit l).sli = s.sli := rfl
@[simp] theorem State.choices_commit (l : Lane) : (s.commit l).choices = s.choices := rfl
@[simp] theorem State.pending_commit (l : Lane) : (s.commit l).pending = s.pending := rfl
@[simp] theorem State.now_commit (l : Lane) : (s.commit l).now = s.now := rfl
@[simp] theorem State.mode_commit (l : Lane) : (s.commit l).mode = s.mode := rfl
@[simp] theorem State.channel_commit (l : Lane) (i : Lane) : (s.commit l).channel i = s.channel i := rfl
@[simp] theorem State.drive_commit (l : Lane) (i : Lane) : (s.commit l).drive i = s.drive i := rfl
@[simp] theorem State.classRecord_commit (l : Lane) (wc : WareClass) : (s.commit l).classRecord wc = s.classRecord wc := rfl
@[simp] theorem State.ticketAt?_commit (l : Lane) (j : Slot) : (s.commit l).ticketAt? j = s.ticketAt? j := rfl
@[simp] theorem State.routeQueue_commit (l : Lane) (i : Lane) : (s.commit l).routeQueue i = s.routeQueue i := rfl
@[simp] theorem State.confirmList_commit (l : Lane) (i : Lane) : (s.commit l).confirmList i = s.confirmList i := rfl

/-! ### release -/

@[simp] theorem State.xtal_release (l : Lane) : (s.release l).xtal = s.xtal := rfl
@[simp] theorem State.inReset_release (l : Lane) : (s.release l).inReset = s.inReset := rfl
@[simp] theorem State.bcu_release (l : Lane) : (s.release l).bcu = s.bcu := rfl
@[simp] theorem State.geo_release (l : Lane) : (s.release l).geo = s.geo := rfl
@[simp] theorem State.ind_release (l : Lane) : (s.release l).ind = s.ind := rfl
@[simp] theorem State.rli_release (l : Lane) : (s.release l).rli = s.rli := rfl
@[simp] theorem State.tt_release (l : Lane) : (s.release l).tt = s.tt := rfl
@[simp] theorem State.cat_release (l : Lane) : (s.release l).cat = s.cat := rfl
@[simp] theorem State.channels_release (l : Lane) : (s.release l).channels = s.channels := rfl
@[simp] theorem State.drives_release (l : Lane) : (s.release l).drives = s.drives := rfl
@[simp] theorem State.carrier_release (l : Lane) : (s.release l).carrier = s.carrier := rfl
@[simp] theorem State.em_release (l : Lane) : (s.release l).em = s.em := rfl
@[simp] theorem State.mc_release (l : Lane) : (s.release l).mc = s.mc := rfl
@[simp] theorem State.sli_release (l : Lane) : (s.release l).sli = s.sli := rfl
@[simp] theorem State.choices_release (l : Lane) : (s.release l).choices = s.choices := rfl
@[simp] theorem State.pending_release (l : Lane) : (s.release l).pending = s.pending := rfl
@[simp] theorem State.now_release (l : Lane) : (s.release l).now = s.now := rfl
@[simp] theorem State.mode_release (l : Lane) : (s.release l).mode = s.mode := rfl
@[simp] theorem State.channel_release (l : Lane) (i : Lane) : (s.release l).channel i = s.channel i := rfl
@[simp] theorem State.drive_release (l : Lane) (i : Lane) : (s.release l).drive i = s.drive i := rfl
@[simp] theorem State.classRecord_release (l : Lane) (wc : WareClass) : (s.release l).classRecord wc = s.classRecord wc := rfl
@[simp] theorem State.ticketAt?_release (l : Lane) (j : Slot) : (s.release l).ticketAt? j = s.ticketAt? j := rfl
@[simp] theorem State.routeQueue_release (l : Lane) (i : Lane) : (s.release l).routeQueue i = s.routeQueue i := rfl
@[simp] theorem State.confirmList_release (l : Lane) (i : Lane) : (s.release l).confirmList i = s.confirmList i := rfl

/-! ### tally -/

@[simp] theorem State.xtal_tally (o : Option Outlet) (c : TicketOutcome) : (s.tally o c).xtal = s.xtal := rfl
@[simp] theorem State.inReset_tally (o : Option Outlet) (c : TicketOutcome) : (s.tally o c).inReset = s.inReset := rfl
@[simp] theorem State.bcu_tally (o : Option Outlet) (c : TicketOutcome) : (s.tally o c).bcu = s.bcu := rfl
@[simp] theorem State.geo_tally (o : Option Outlet) (c : TicketOutcome) : (s.tally o c).geo = s.geo := rfl
@[simp] theorem State.ind_tally (o : Option Outlet) (c : TicketOutcome) : (s.tally o c).ind = s.ind := rfl
@[simp] theorem State.rli_tally (o : Option Outlet) (c : TicketOutcome) : (s.tally o c).rli = s.rli := rfl
@[simp] theorem State.cat_tally (o : Option Outlet) (c : TicketOutcome) : (s.tally o c).cat = s.cat := rfl
@[simp] theorem State.lanes_tally (o : Option Outlet) (c : TicketOutcome) : (s.tally o c).lanes = s.lanes := rfl
@[simp] theorem State.channels_tally (o : Option Outlet) (c : TicketOutcome) : (s.tally o c).channels = s.channels := rfl
@[simp] theorem State.drives_tally (o : Option Outlet) (c : TicketOutcome) : (s.tally o c).drives = s.drives := rfl
@[simp] theorem State.carrier_tally (o : Option Outlet) (c : TicketOutcome) : (s.tally o c).carrier = s.carrier := rfl
@[simp] theorem State.em_tally (o : Option Outlet) (c : TicketOutcome) : (s.tally o c).em = s.em := rfl
@[simp] theorem State.mc_tally (o : Option Outlet) (c : TicketOutcome) : (s.tally o c).mc = s.mc := rfl
@[simp] theorem State.sli_tally (o : Option Outlet) (c : TicketOutcome) : (s.tally o c).sli = s.sli := rfl
@[simp] theorem State.choices_tally (o : Option Outlet) (c : TicketOutcome) : (s.tally o c).choices = s.choices := rfl
@[simp] theorem State.pending_tally (o : Option Outlet) (c : TicketOutcome) : (s.tally o c).pending = s.pending := rfl
@[simp] theorem State.now_tally (o : Option Outlet) (c : TicketOutcome) : (s.tally o c).now = s.now := rfl
@[simp] theorem State.mode_tally (o : Option Outlet) (c : TicketOutcome) : (s.tally o c).mode = s.mode := rfl
@[simp] theorem State.lane_tally (o : Option Outlet) (c : TicketOutcome) (i : Lane) : (s.tally o c).lane i = s.lane i := rfl
@[simp] theorem State.channel_tally (o : Option Outlet) (c : TicketOutcome) (i : Lane) : (s.tally o c).channel i = s.channel i := rfl
@[simp] theorem State.drive_tally (o : Option Outlet) (c : TicketOutcome) (i : Lane) : (s.tally o c).drive i = s.drive i := rfl
@[simp] theorem State.classRecord_tally (o : Option Outlet) (c : TicketOutcome) (wc : WareClass) : (s.tally o c).classRecord wc = s.classRecord wc := rfl

/-! ### setAssembly -/

@[simp] theorem State.xtal_setAssembly (a : Assembly) : (s.setAssembly a).xtal = s.xtal := rfl
@[simp] theorem State.inReset_setAssembly (a : Assembly) : (s.setAssembly a).inReset = s.inReset := rfl
@[simp] theorem State.bcu_setAssembly (a : Assembly) : (s.setAssembly a).bcu = s.bcu := rfl
@[simp] theorem State.geo_setAssembly (a : Assembly) : (s.setAssembly a).geo = s.geo := rfl
@[simp] theorem State.ind_setAssembly (a : Assembly) : (s.setAssembly a).ind = s.ind := rfl
@[simp] theorem State.tt_setAssembly (a : Assembly) : (s.setAssembly a).tt = s.tt := rfl
@[simp] theorem State.cat_setAssembly (a : Assembly) : (s.setAssembly a).cat = s.cat := rfl
@[simp] theorem State.lanes_setAssembly (a : Assembly) : (s.setAssembly a).lanes = s.lanes := rfl
@[simp] theorem State.channels_setAssembly (a : Assembly) : (s.setAssembly a).channels = s.channels := rfl
@[simp] theorem State.drives_setAssembly (a : Assembly) : (s.setAssembly a).drives = s.drives := rfl
@[simp] theorem State.carrier_setAssembly (a : Assembly) : (s.setAssembly a).carrier = s.carrier := rfl
@[simp] theorem State.em_setAssembly (a : Assembly) : (s.setAssembly a).em = s.em := rfl
@[simp] theorem State.mc_setAssembly (a : Assembly) : (s.setAssembly a).mc = s.mc := rfl
@[simp] theorem State.sli_setAssembly (a : Assembly) : (s.setAssembly a).sli = s.sli := rfl
@[simp] theorem State.choices_setAssembly (a : Assembly) : (s.setAssembly a).choices = s.choices := rfl
@[simp] theorem State.pending_setAssembly (a : Assembly) : (s.setAssembly a).pending = s.pending := rfl
@[simp] theorem State.now_setAssembly (a : Assembly) : (s.setAssembly a).now = s.now := rfl
@[simp] theorem State.mode_setAssembly (a : Assembly) : (s.setAssembly a).mode = s.mode := rfl
@[simp] theorem State.lane_setAssembly (a : Assembly) (i : Lane) : (s.setAssembly a).lane i = s.lane i := rfl
@[simp] theorem State.channel_setAssembly (a : Assembly) (i : Lane) : (s.setAssembly a).channel i = s.channel i := rfl
@[simp] theorem State.drive_setAssembly (a : Assembly) (i : Lane) : (s.setAssembly a).drive i = s.drive i := rfl
@[simp] theorem State.classRecord_setAssembly (a : Assembly) (wc : WareClass) : (s.setAssembly a).classRecord wc = s.classRecord wc := rfl
@[simp] theorem State.ticketAt?_setAssembly (a : Assembly) (j : Slot) : (s.setAssembly a).ticketAt? j = s.ticketAt? j := rfl
@[simp] theorem State.routeQueue_setAssembly (a : Assembly) (i : Lane) : (s.setAssembly a).routeQueue i = s.routeQueue i := rfl
@[simp] theorem State.confirmList_setAssembly (a : Assembly) (i : Lane) : (s.setAssembly a).confirmList i = s.confirmList i := rfl

/-! ### setFrame -/

@[simp] theorem State.xtal_setFrame (f : FrameState) (b : Bool) : (s.setFrame f b).xtal = s.xtal := rfl
@[simp] theorem State.inReset_setFrame (f : FrameState) (b : Bool) : (s.setFrame f b).inReset = s.inReset := rfl
@[simp] theorem State.bcu_setFrame (f : FrameState) (b : Bool) : (s.setFrame f b).bcu = s.bcu := rfl
@[simp] theorem State.geo_setFrame (f : FrameState) (b : Bool) : (s.setFrame f b).geo = s.geo := rfl
@[simp] theorem State.ind_setFrame (f : FrameState) (b : Bool) : (s.setFrame f b).ind = s.ind := rfl
@[simp] theorem State.rli_setFrame (f : FrameState) (b : Bool) : (s.setFrame f b).rli = s.rli := rfl
@[simp] theorem State.tt_setFrame (f : FrameState) (b : Bool) : (s.setFrame f b).tt = s.tt := rfl
@[simp] theorem State.cat_setFrame (f : FrameState) (b : Bool) : (s.setFrame f b).cat = s.cat := rfl
@[simp] theorem State.lanes_setFrame (f : FrameState) (b : Bool) : (s.setFrame f b).lanes = s.lanes := rfl
@[simp] theorem State.channels_setFrame (f : FrameState) (b : Bool) : (s.setFrame f b).channels = s.channels := rfl
@[simp] theorem State.drives_setFrame (f : FrameState) (b : Bool) : (s.setFrame f b).drives = s.drives := rfl
@[simp] theorem State.carrier_setFrame (f : FrameState) (b : Bool) : (s.setFrame f b).carrier = s.carrier := rfl
@[simp] theorem State.em_setFrame (f : FrameState) (b : Bool) : (s.setFrame f b).em = s.em := rfl
@[simp] theorem State.mc_setFrame (f : FrameState) (b : Bool) : (s.setFrame f b).mc = s.mc := rfl
@[simp] theorem State.choices_setFrame (f : FrameState) (b : Bool) : (s.setFrame f b).choices = s.choices := rfl
@[simp] theorem State.pending_setFrame (f : FrameState) (b : Bool) : (s.setFrame f b).pending = s.pending := rfl
@[simp] theorem State.now_setFrame (f : FrameState) (b : Bool) : (s.setFrame f b).now = s.now := rfl
@[simp] theorem State.mode_setFrame (f : FrameState) (b : Bool) : (s.setFrame f b).mode = s.mode := rfl
@[simp] theorem State.lane_setFrame (f : FrameState) (b : Bool) (i : Lane) : (s.setFrame f b).lane i = s.lane i := rfl
@[simp] theorem State.channel_setFrame (f : FrameState) (b : Bool) (i : Lane) : (s.setFrame f b).channel i = s.channel i := rfl
@[simp] theorem State.drive_setFrame (f : FrameState) (b : Bool) (i : Lane) : (s.setFrame f b).drive i = s.drive i := rfl
@[simp] theorem State.classRecord_setFrame (f : FrameState) (b : Bool) (wc : WareClass) : (s.setFrame f b).classRecord wc = s.classRecord wc := rfl
@[simp] theorem State.ticketAt?_setFrame (f : FrameState) (b : Bool) (j : Slot) : (s.setFrame f b).ticketAt? j = s.ticketAt? j := rfl
@[simp] theorem State.routeQueue_setFrame (f : FrameState) (b : Bool) (i : Lane) : (s.setFrame f b).routeQueue i = s.routeQueue i := rfl
@[simp] theorem State.confirmList_setFrame (f : FrameState) (b : Bool) (i : Lane) : (s.setFrame f b).confirmList i = s.confirmList i := rfl

/-! ### frameDone -/

@[simp] theorem State.xtal_frameDone : s.frameDone.xtal = s.xtal := rfl
@[simp] theorem State.inReset_frameDone : s.frameDone.inReset = s.inReset := rfl
@[simp] theorem State.bcu_frameDone : s.frameDone.bcu = s.bcu := rfl
@[simp] theorem State.geo_frameDone : s.frameDone.geo = s.geo := rfl
@[simp] theorem State.ind_frameDone : s.frameDone.ind = s.ind := rfl
@[simp] theorem State.rli_frameDone : s.frameDone.rli = s.rli := rfl
@[simp] theorem State.tt_frameDone : s.frameDone.tt = s.tt := rfl
@[simp] theorem State.cat_frameDone : s.frameDone.cat = s.cat := rfl
@[simp] theorem State.lanes_frameDone : s.frameDone.lanes = s.lanes := rfl
@[simp] theorem State.channels_frameDone : s.frameDone.channels = s.channels := rfl
@[simp] theorem State.drives_frameDone : s.frameDone.drives = s.drives := rfl
@[simp] theorem State.carrier_frameDone : s.frameDone.carrier = s.carrier := rfl
@[simp] theorem State.em_frameDone : s.frameDone.em = s.em := rfl
@[simp] theorem State.mc_frameDone : s.frameDone.mc = s.mc := rfl
@[simp] theorem State.choices_frameDone : s.frameDone.choices = s.choices := rfl
@[simp] theorem State.pending_frameDone : s.frameDone.pending = s.pending := rfl
@[simp] theorem State.now_frameDone : s.frameDone.now = s.now := rfl
@[simp] theorem State.mode_frameDone : s.frameDone.mode = s.mode := rfl
@[simp] theorem State.lane_frameDone (i : Lane) : s.frameDone.lane i = s.lane i := rfl
@[simp] theorem State.channel_frameDone (i : Lane) : s.frameDone.channel i = s.channel i := rfl
@[simp] theorem State.drive_frameDone (i : Lane) : s.frameDone.drive i = s.drive i := rfl
@[simp] theorem State.classRecord_frameDone (wc : WareClass) : s.frameDone.classRecord wc = s.classRecord wc := rfl
@[simp] theorem State.ticketAt?_frameDone (j : Slot) : s.frameDone.ticketAt? j = s.ticketAt? j := rfl
@[simp] theorem State.routeQueue_frameDone (i : Lane) : s.frameDone.routeQueue i = s.routeQueue i := rfl
@[simp] theorem State.confirmList_frameDone (i : Lane) : s.frameDone.confirmList i = s.confirmList i := rfl

/-! ### endStroking -/

@[simp] theorem State.xtal_endStroking (l : Lane) (m : Marks → Marks) : (s.endStroking l m).xtal = s.xtal := rfl
@[simp] theorem State.inReset_endStroking (l : Lane) (m : Marks → Marks) : (s.endStroking l m).inReset = s.inReset := rfl
@[simp] theorem State.bcu_endStroking (l : Lane) (m : Marks → Marks) : (s.endStroking l m).bcu = s.bcu := rfl
@[simp] theorem State.geo_endStroking (l : Lane) (m : Marks → Marks) : (s.endStroking l m).geo = s.geo := rfl
@[simp] theorem State.ind_endStroking (l : Lane) (m : Marks → Marks) : (s.endStroking l m).ind = s.ind := rfl
@[simp] theorem State.rli_endStroking (l : Lane) (m : Marks → Marks) : (s.endStroking l m).rli = s.rli := rfl
@[simp] theorem State.cat_endStroking (l : Lane) (m : Marks → Marks) : (s.endStroking l m).cat = s.cat := rfl
@[simp] theorem State.lanes_endStroking (l : Lane) (m : Marks → Marks) : (s.endStroking l m).lanes = s.lanes := rfl
@[simp] theorem State.channels_endStroking (l : Lane) (m : Marks → Marks) : (s.endStroking l m).channels = s.channels := rfl
@[simp] theorem State.drives_endStroking (l : Lane) (m : Marks → Marks) : (s.endStroking l m).drives = s.drives := rfl
@[simp] theorem State.carrier_endStroking (l : Lane) (m : Marks → Marks) : (s.endStroking l m).carrier = s.carrier := rfl
@[simp] theorem State.em_endStroking (l : Lane) (m : Marks → Marks) : (s.endStroking l m).em = s.em := rfl
@[simp] theorem State.mc_endStroking (l : Lane) (m : Marks → Marks) : (s.endStroking l m).mc = s.mc := rfl
@[simp] theorem State.sli_endStroking (l : Lane) (m : Marks → Marks) : (s.endStroking l m).sli = s.sli := rfl
@[simp] theorem State.choices_endStroking (l : Lane) (m : Marks → Marks) : (s.endStroking l m).choices = s.choices := rfl
@[simp] theorem State.pending_endStroking (l : Lane) (m : Marks → Marks) : (s.endStroking l m).pending = s.pending := rfl
@[simp] theorem State.now_endStroking (l : Lane) (m : Marks → Marks) : (s.endStroking l m).now = s.now := rfl
@[simp] theorem State.mode_endStroking (l : Lane) (m : Marks → Marks) : (s.endStroking l m).mode = s.mode := rfl
@[simp] theorem State.lane_endStroking (l : Lane) (m : Marks → Marks) (i : Lane) : (s.endStroking l m).lane i = s.lane i := rfl
@[simp] theorem State.channel_endStroking (l : Lane) (m : Marks → Marks) (i : Lane) : (s.endStroking l m).channel i = s.channel i := rfl
@[simp] theorem State.drive_endStroking (l : Lane) (m : Marks → Marks) (i : Lane) : (s.endStroking l m).drive i = s.drive i := rfl
@[simp] theorem State.classRecord_endStroking (l : Lane) (m : Marks → Marks) (wc : WareClass) : (s.endStroking l m).classRecord wc = s.classRecord wc := rfl

/-! ### storeBounds -/

@[simp] theorem State.xtal_storeBounds (k : Slot) : (s.storeBounds k).xtal = s.xtal := rfl
@[simp] theorem State.inReset_storeBounds (k : Slot) : (s.storeBounds k).inReset = s.inReset := rfl
@[simp] theorem State.bcu_storeBounds (k : Slot) : (s.storeBounds k).bcu = s.bcu := rfl
@[simp] theorem State.geo_storeBounds (k : Slot) : (s.storeBounds k).geo = s.geo := rfl
@[simp] theorem State.ind_storeBounds (k : Slot) : (s.storeBounds k).ind = s.ind := rfl
@[simp] theorem State.rli_storeBounds (k : Slot) : (s.storeBounds k).rli = s.rli := rfl
@[simp] theorem State.cat_storeBounds (k : Slot) : (s.storeBounds k).cat = s.cat := rfl
@[simp] theorem State.lanes_storeBounds (k : Slot) : (s.storeBounds k).lanes = s.lanes := rfl
@[simp] theorem State.channels_storeBounds (k : Slot) : (s.storeBounds k).channels = s.channels := rfl
@[simp] theorem State.drives_storeBounds (k : Slot) : (s.storeBounds k).drives = s.drives := rfl
@[simp] theorem State.carrier_storeBounds (k : Slot) : (s.storeBounds k).carrier = s.carrier := rfl
@[simp] theorem State.em_storeBounds (k : Slot) : (s.storeBounds k).em = s.em := rfl
@[simp] theorem State.mc_storeBounds (k : Slot) : (s.storeBounds k).mc = s.mc := rfl
@[simp] theorem State.sli_storeBounds (k : Slot) : (s.storeBounds k).sli = s.sli := rfl
@[simp] theorem State.choices_storeBounds (k : Slot) : (s.storeBounds k).choices = s.choices := rfl
@[simp] theorem State.pending_storeBounds (k : Slot) : (s.storeBounds k).pending = s.pending := rfl
@[simp] theorem State.now_storeBounds (k : Slot) : (s.storeBounds k).now = s.now := rfl
@[simp] theorem State.mode_storeBounds (k : Slot) : (s.storeBounds k).mode = s.mode := rfl
@[simp] theorem State.lane_storeBounds (k : Slot) (i : Lane) : (s.storeBounds k).lane i = s.lane i := rfl
@[simp] theorem State.channel_storeBounds (k : Slot) (i : Lane) : (s.storeBounds k).channel i = s.channel i := rfl
@[simp] theorem State.drive_storeBounds (k : Slot) (i : Lane) : (s.storeBounds k).drive i = s.drive i := rfl
@[simp] theorem State.classRecord_storeBounds (k : Slot) (wc : WareClass) : (s.storeBounds k).classRecord wc = s.classRecord wc := rfl

/-! ### closeChannel -/

@[simp] theorem State.xtal_closeChannel (l : Lane) : (s.closeChannel l).xtal = s.xtal := rfl
@[simp] theorem State.inReset_closeChannel (l : Lane) : (s.closeChannel l).inReset = s.inReset := rfl
@[simp] theorem State.bcu_closeChannel (l : Lane) : (s.closeChannel l).bcu = s.bcu := rfl
@[simp] theorem State.geo_closeChannel (l : Lane) : (s.closeChannel l).geo = s.geo := rfl
@[simp] theorem State.ind_closeChannel (l : Lane) : (s.closeChannel l).ind = s.ind := rfl
@[simp] theorem State.rli_closeChannel (l : Lane) : (s.closeChannel l).rli = s.rli := rfl
@[simp] theorem State.tt_closeChannel (l : Lane) : (s.closeChannel l).tt = s.tt := rfl
@[simp] theorem State.cat_closeChannel (l : Lane) : (s.closeChannel l).cat = s.cat := rfl
@[simp] theorem State.lanes_closeChannel (l : Lane) : (s.closeChannel l).lanes = s.lanes := rfl
@[simp] theorem State.drives_closeChannel (l : Lane) : (s.closeChannel l).drives = s.drives := rfl
@[simp] theorem State.carrier_closeChannel (l : Lane) : (s.closeChannel l).carrier = s.carrier := rfl
@[simp] theorem State.em_closeChannel (l : Lane) : (s.closeChannel l).em = s.em := rfl
@[simp] theorem State.mc_closeChannel (l : Lane) : (s.closeChannel l).mc = s.mc := rfl
@[simp] theorem State.sli_closeChannel (l : Lane) : (s.closeChannel l).sli = s.sli := rfl
@[simp] theorem State.choices_closeChannel (l : Lane) : (s.closeChannel l).choices = s.choices := rfl
@[simp] theorem State.pending_closeChannel (l : Lane) : (s.closeChannel l).pending = s.pending := rfl
@[simp] theorem State.now_closeChannel (l : Lane) : (s.closeChannel l).now = s.now := rfl
@[simp] theorem State.mode_closeChannel (l : Lane) : (s.closeChannel l).mode = s.mode := rfl
@[simp] theorem State.lane_closeChannel (l : Lane) (i : Lane) : (s.closeChannel l).lane i = s.lane i := rfl
@[simp] theorem State.drive_closeChannel (l : Lane) (i : Lane) : (s.closeChannel l).drive i = s.drive i := rfl
@[simp] theorem State.classRecord_closeChannel (l : Lane) (wc : WareClass) : (s.closeChannel l).classRecord wc = s.classRecord wc := rfl
@[simp] theorem State.ticketAt?_closeChannel (l : Lane) (j : Slot) : (s.closeChannel l).ticketAt? j = s.ticketAt? j := rfl
@[simp] theorem State.routeQueue_closeChannel (l : Lane) (i : Lane) : (s.closeChannel l).routeQueue i = s.routeQueue i := rfl
@[simp] theorem State.confirmList_closeChannel (l : Lane) (i : Lane) : (s.closeChannel l).confirmList i = s.confirmList i := rfl

/-! ### arm -/

@[simp] theorem State.xtal_arm (l : Lane) (t : Ticket) : (s.arm l t).xtal = s.xtal := rfl
@[simp] theorem State.inReset_arm (l : Lane) (t : Ticket) : (s.arm l t).inReset = s.inReset := rfl
@[simp] theorem State.bcu_arm (l : Lane) (t : Ticket) : (s.arm l t).bcu = s.bcu := rfl
@[simp] theorem State.geo_arm (l : Lane) (t : Ticket) : (s.arm l t).geo = s.geo := rfl
@[simp] theorem State.ind_arm (l : Lane) (t : Ticket) : (s.arm l t).ind = s.ind := rfl
@[simp] theorem State.rli_arm (l : Lane) (t : Ticket) : (s.arm l t).rli = s.rli := rfl
@[simp] theorem State.cat_arm (l : Lane) (t : Ticket) : (s.arm l t).cat = s.cat := rfl
@[simp] theorem State.lanes_arm (l : Lane) (t : Ticket) : (s.arm l t).lanes = s.lanes := rfl
@[simp] theorem State.drives_arm (l : Lane) (t : Ticket) : (s.arm l t).drives = s.drives := rfl
@[simp] theorem State.carrier_arm (l : Lane) (t : Ticket) : (s.arm l t).carrier = s.carrier := rfl
@[simp] theorem State.em_arm (l : Lane) (t : Ticket) : (s.arm l t).em = s.em := rfl
@[simp] theorem State.mc_arm (l : Lane) (t : Ticket) : (s.arm l t).mc = s.mc := rfl
@[simp] theorem State.sli_arm (l : Lane) (t : Ticket) : (s.arm l t).sli = s.sli := rfl
@[simp] theorem State.choices_arm (l : Lane) (t : Ticket) : (s.arm l t).choices = s.choices := rfl
@[simp] theorem State.pending_arm (l : Lane) (t : Ticket) : (s.arm l t).pending = s.pending := rfl
@[simp] theorem State.now_arm (l : Lane) (t : Ticket) : (s.arm l t).now = s.now := rfl
@[simp] theorem State.mode_arm (l : Lane) (t : Ticket) : (s.arm l t).mode = s.mode := rfl
@[simp] theorem State.lane_arm (l : Lane) (t : Ticket) (i : Lane) : (s.arm l t).lane i = s.lane i := rfl
@[simp] theorem State.drive_arm (l : Lane) (t : Ticket) (i : Lane) : (s.arm l t).drive i = s.drive i := rfl
@[simp] theorem State.classRecord_arm (l : Lane) (t : Ticket) (wc : WareClass) : (s.arm l t).classRecord wc = s.classRecord wc := rfl

/-! ### takeFire -/

@[simp] theorem State.xtal_takeFire (l : Lane) (t : Ticket) : (s.takeFire l t).xtal = s.xtal := rfl
@[simp] theorem State.inReset_takeFire (l : Lane) (t : Ticket) : (s.takeFire l t).inReset = s.inReset := rfl
@[simp] theorem State.bcu_takeFire (l : Lane) (t : Ticket) : (s.takeFire l t).bcu = s.bcu := rfl
@[simp] theorem State.geo_takeFire (l : Lane) (t : Ticket) : (s.takeFire l t).geo = s.geo := rfl
@[simp] theorem State.ind_takeFire (l : Lane) (t : Ticket) : (s.takeFire l t).ind = s.ind := rfl
@[simp] theorem State.rli_takeFire (l : Lane) (t : Ticket) : (s.takeFire l t).rli = s.rli := rfl
@[simp] theorem State.cat_takeFire (l : Lane) (t : Ticket) : (s.takeFire l t).cat = s.cat := rfl
@[simp] theorem State.lanes_takeFire (l : Lane) (t : Ticket) : (s.takeFire l t).lanes = s.lanes := rfl
@[simp] theorem State.drives_takeFire (l : Lane) (t : Ticket) : (s.takeFire l t).drives = s.drives := rfl
@[simp] theorem State.carrier_takeFire (l : Lane) (t : Ticket) : (s.takeFire l t).carrier = s.carrier := rfl
@[simp] theorem State.em_takeFire (l : Lane) (t : Ticket) : (s.takeFire l t).em = s.em := rfl
@[simp] theorem State.mc_takeFire (l : Lane) (t : Ticket) : (s.takeFire l t).mc = s.mc := rfl
@[simp] theorem State.sli_takeFire (l : Lane) (t : Ticket) : (s.takeFire l t).sli = s.sli := rfl
@[simp] theorem State.choices_takeFire (l : Lane) (t : Ticket) : (s.takeFire l t).choices = s.choices := rfl
@[simp] theorem State.pending_takeFire (l : Lane) (t : Ticket) : (s.takeFire l t).pending = s.pending := rfl
@[simp] theorem State.now_takeFire (l : Lane) (t : Ticket) : (s.takeFire l t).now = s.now := rfl
@[simp] theorem State.mode_takeFire (l : Lane) (t : Ticket) : (s.takeFire l t).mode = s.mode := rfl
@[simp] theorem State.lane_takeFire (l : Lane) (t : Ticket) (i : Lane) : (s.takeFire l t).lane i = s.lane i := rfl
@[simp] theorem State.drive_takeFire (l : Lane) (t : Ticket) (i : Lane) : (s.takeFire l t).drive i = s.drive i := rfl
@[simp] theorem State.classRecord_takeFire (l : Lane) (t : Ticket) (wc : WareClass) : (s.takeFire l t).classRecord wc = s.classRecord wc := rfl

/-! ### startStroke -/

@[simp] theorem State.xtal_startStroke (l : Lane) (k : StrokeKind) : (s.startStroke l k).xtal = s.xtal := rfl
@[simp] theorem State.inReset_startStroke (l : Lane) (k : StrokeKind) : (s.startStroke l k).inReset = s.inReset := rfl
@[simp] theorem State.bcu_startStroke (l : Lane) (k : StrokeKind) : (s.startStroke l k).bcu = s.bcu := rfl
@[simp] theorem State.geo_startStroke (l : Lane) (k : StrokeKind) : (s.startStroke l k).geo = s.geo := rfl
@[simp] theorem State.ind_startStroke (l : Lane) (k : StrokeKind) : (s.startStroke l k).ind = s.ind := rfl
@[simp] theorem State.rli_startStroke (l : Lane) (k : StrokeKind) : (s.startStroke l k).rli = s.rli := rfl
@[simp] theorem State.tt_startStroke (l : Lane) (k : StrokeKind) : (s.startStroke l k).tt = s.tt := rfl
@[simp] theorem State.cat_startStroke (l : Lane) (k : StrokeKind) : (s.startStroke l k).cat = s.cat := rfl
@[simp] theorem State.lanes_startStroke (l : Lane) (k : StrokeKind) : (s.startStroke l k).lanes = s.lanes := rfl
@[simp] theorem State.channels_startStroke (l : Lane) (k : StrokeKind) : (s.startStroke l k).channels = s.channels := rfl
@[simp] theorem State.carrier_startStroke (l : Lane) (k : StrokeKind) : (s.startStroke l k).carrier = s.carrier := rfl
@[simp] theorem State.em_startStroke (l : Lane) (k : StrokeKind) : (s.startStroke l k).em = s.em := rfl
@[simp] theorem State.mc_startStroke (l : Lane) (k : StrokeKind) : (s.startStroke l k).mc = s.mc := rfl
@[simp] theorem State.sli_startStroke (l : Lane) (k : StrokeKind) : (s.startStroke l k).sli = s.sli := rfl
@[simp] theorem State.choices_startStroke (l : Lane) (k : StrokeKind) : (s.startStroke l k).choices = s.choices := rfl
@[simp] theorem State.pending_startStroke (l : Lane) (k : StrokeKind) : (s.startStroke l k).pending = s.pending := rfl
@[simp] theorem State.now_startStroke (l : Lane) (k : StrokeKind) : (s.startStroke l k).now = s.now := rfl
@[simp] theorem State.mode_startStroke (l : Lane) (k : StrokeKind) : (s.startStroke l k).mode = s.mode := rfl
@[simp] theorem State.lane_startStroke (l : Lane) (k : StrokeKind) (i : Lane) : (s.startStroke l k).lane i = s.lane i := rfl
@[simp] theorem State.channel_startStroke (l : Lane) (k : StrokeKind) (i : Lane) : (s.startStroke l k).channel i = s.channel i := rfl
@[simp] theorem State.classRecord_startStroke (l : Lane) (k : StrokeKind) (wc : WareClass) : (s.startStroke l k).classRecord wc = s.classRecord wc := rfl
@[simp] theorem State.ticketAt?_startStroke (l : Lane) (k : StrokeKind) (j : Slot) : (s.startStroke l k).ticketAt? j = s.ticketAt? j := rfl
@[simp] theorem State.routeQueue_startStroke (l : Lane) (k : StrokeKind) (i : Lane) : (s.startStroke l k).routeQueue i = s.routeQueue i := rfl
@[simp] theorem State.confirmList_startStroke (l : Lane) (k : StrokeKind) (i : Lane) : (s.startStroke l k).confirmList i = s.confirmList i := rfl

/-! ### driveRecover -/

@[simp] theorem State.xtal_driveRecover (l : Lane) : (s.driveRecover l).xtal = s.xtal := rfl
@[simp] theorem State.inReset_driveRecover (l : Lane) : (s.driveRecover l).inReset = s.inReset := rfl
@[simp] theorem State.bcu_driveRecover (l : Lane) : (s.driveRecover l).bcu = s.bcu := rfl
@[simp] theorem State.geo_driveRecover (l : Lane) : (s.driveRecover l).geo = s.geo := rfl
@[simp] theorem State.ind_driveRecover (l : Lane) : (s.driveRecover l).ind = s.ind := rfl
@[simp] theorem State.rli_driveRecover (l : Lane) : (s.driveRecover l).rli = s.rli := rfl
@[simp] theorem State.tt_driveRecover (l : Lane) : (s.driveRecover l).tt = s.tt := rfl
@[simp] theorem State.cat_driveRecover (l : Lane) : (s.driveRecover l).cat = s.cat := rfl
@[simp] theorem State.lanes_driveRecover (l : Lane) : (s.driveRecover l).lanes = s.lanes := rfl
@[simp] theorem State.channels_driveRecover (l : Lane) : (s.driveRecover l).channels = s.channels := rfl
@[simp] theorem State.carrier_driveRecover (l : Lane) : (s.driveRecover l).carrier = s.carrier := rfl
@[simp] theorem State.em_driveRecover (l : Lane) : (s.driveRecover l).em = s.em := rfl
@[simp] theorem State.mc_driveRecover (l : Lane) : (s.driveRecover l).mc = s.mc := rfl
@[simp] theorem State.sli_driveRecover (l : Lane) : (s.driveRecover l).sli = s.sli := rfl
@[simp] theorem State.choices_driveRecover (l : Lane) : (s.driveRecover l).choices = s.choices := rfl
@[simp] theorem State.pending_driveRecover (l : Lane) : (s.driveRecover l).pending = s.pending := rfl
@[simp] theorem State.now_driveRecover (l : Lane) : (s.driveRecover l).now = s.now := rfl
@[simp] theorem State.mode_driveRecover (l : Lane) : (s.driveRecover l).mode = s.mode := rfl
@[simp] theorem State.lane_driveRecover (l : Lane) (i : Lane) : (s.driveRecover l).lane i = s.lane i := rfl
@[simp] theorem State.channel_driveRecover (l : Lane) (i : Lane) : (s.driveRecover l).channel i = s.channel i := rfl
@[simp] theorem State.classRecord_driveRecover (l : Lane) (wc : WareClass) : (s.driveRecover l).classRecord wc = s.classRecord wc := rfl
@[simp] theorem State.ticketAt?_driveRecover (l : Lane) (j : Slot) : (s.driveRecover l).ticketAt? j = s.ticketAt? j := rfl
@[simp] theorem State.routeQueue_driveRecover (l : Lane) (i : Lane) : (s.driveRecover l).routeQueue i = s.routeQueue i := rfl
@[simp] theorem State.confirmList_driveRecover (l : Lane) (i : Lane) : (s.driveRecover l).confirmList i = s.confirmList i := rfl

/-! ### giveLane -/

@[simp] theorem State.xtal_giveLane (k : Slot) (c : WareClass) (l : Lane) (r : Reason) (h : Nat) : (s.giveLane k c l r h).xtal = s.xtal := rfl
@[simp] theorem State.inReset_giveLane (k : Slot) (c : WareClass) (l : Lane) (r : Reason) (h : Nat) : (s.giveLane k c l r h).inReset = s.inReset := rfl
@[simp] theorem State.bcu_giveLane (k : Slot) (c : WareClass) (l : Lane) (r : Reason) (h : Nat) : (s.giveLane k c l r h).bcu = s.bcu := rfl
@[simp] theorem State.geo_giveLane (k : Slot) (c : WareClass) (l : Lane) (r : Reason) (h : Nat) : (s.giveLane k c l r h).geo = s.geo := rfl
@[simp] theorem State.ind_giveLane (k : Slot) (c : WareClass) (l : Lane) (r : Reason) (h : Nat) : (s.giveLane k c l r h).ind = s.ind := rfl
@[simp] theorem State.rli_giveLane (k : Slot) (c : WareClass) (l : Lane) (r : Reason) (h : Nat) : (s.giveLane k c l r h).rli = s.rli := rfl
@[simp] theorem State.cat_giveLane (k : Slot) (c : WareClass) (l : Lane) (r : Reason) (h : Nat) : (s.giveLane k c l r h).cat = s.cat := rfl
@[simp] theorem State.channels_giveLane (k : Slot) (c : WareClass) (l : Lane) (r : Reason) (h : Nat) : (s.giveLane k c l r h).channels = s.channels := rfl
@[simp] theorem State.drives_giveLane (k : Slot) (c : WareClass) (l : Lane) (r : Reason) (h : Nat) : (s.giveLane k c l r h).drives = s.drives := rfl
@[simp] theorem State.carrier_giveLane (k : Slot) (c : WareClass) (l : Lane) (r : Reason) (h : Nat) : (s.giveLane k c l r h).carrier = s.carrier := rfl
@[simp] theorem State.em_giveLane (k : Slot) (c : WareClass) (l : Lane) (r : Reason) (h : Nat) : (s.giveLane k c l r h).em = s.em := rfl
@[simp] theorem State.mc_giveLane (k : Slot) (c : WareClass) (l : Lane) (r : Reason) (h : Nat) : (s.giveLane k c l r h).mc = s.mc := rfl
@[simp] theorem State.sli_giveLane (k : Slot) (c : WareClass) (l : Lane) (r : Reason) (h : Nat) : (s.giveLane k c l r h).sli = s.sli := rfl
@[simp] theorem State.choices_giveLane (k : Slot) (c : WareClass) (l : Lane) (r : Reason) (h : Nat) : (s.giveLane k c l r h).choices = s.choices := rfl
@[simp] theorem State.pending_giveLane (k : Slot) (c : WareClass) (l : Lane) (r : Reason) (h : Nat) : (s.giveLane k c l r h).pending = s.pending := rfl
@[simp] theorem State.now_giveLane (k : Slot) (c : WareClass) (l : Lane) (r : Reason) (h : Nat) : (s.giveLane k c l r h).now = s.now := rfl
@[simp] theorem State.mode_giveLane (k : Slot) (c : WareClass) (l : Lane) (r : Reason) (h : Nat) : (s.giveLane k c l r h).mode = s.mode := rfl
@[simp] theorem State.channel_giveLane (k : Slot) (c : WareClass) (l : Lane) (r : Reason) (h : Nat) (i : Lane) : (s.giveLane k c l r h).channel i = s.channel i := rfl
@[simp] theorem State.drive_giveLane (k : Slot) (c : WareClass) (l : Lane) (r : Reason) (h : Nat) (i : Lane) : (s.giveLane k c l r h).drive i = s.drive i := rfl
@[simp] theorem State.classRecord_giveLane (k : Slot) (c : WareClass) (l : Lane) (r : Reason) (h : Nat) (wc : WareClass) : (s.giveLane k c l r h).classRecord wc = s.classRecord wc := rfl

/-! ### The changed field -/

@[simp] theorem State.mode_setMode (m : Mode) : (s.setMode m).mode = m := rfl
@[simp] theorem State.belt_modTicket (k : Slot) (f : Ticket → Ticket) :
    (s.modTicket k f).tt.belt = s.tt.belt.map (fun t => if t.slot = k then f t else t) := rfl
@[simp] theorem State.tallies_modTicket (k : Slot) (f : Ticket → Ticket) :
    (s.modTicket k f).tt.tallies = s.tt.tallies := rfl
@[simp] theorem State.generations_modTicket (k : Slot) (f : Ticket → Ticket) :
    (s.modTicket k f).tt.generations = s.tt.generations := rfl
@[simp] theorem State.runOffReasons_modTicket (k : Slot) (f : Ticket → Ticket) :
    (s.modTicket k f).tt.runOffReasons = s.tt.runOffReasons := rfl
@[simp] theorem State.untracked_modTicket (k : Slot) (f : Ticket → Ticket) :
    (s.modTicket k f).tt.untracked = s.tt.untracked := rfl
@[simp] theorem State.belt_tally (o : Option Outlet) (c : TicketOutcome) : (s.tally o c).tt.belt = s.tt.belt := rfl
@[simp] theorem State.belt_endStroking (l : Lane) (m : Marks → Marks) : (s.endStroking l m).tt.belt =
    s.tt.belt.map (fun t => if t.state = .stroking ∧ t.laneDest = some l then
      { t with state := .confirming, marks := m t.marks } else t) := rfl
@[simp] theorem State.flags_raise (f : Flag) : (s.raise f).sli.flags = s.sli.flags ||| f.bit := rfl

/-! ### Reading a table after a change -/

@[simp] theorem tableMod_get_self {α : Type} {n : Nat} (v : Vector α n) (i : Fin n) (f : α → α) :
    (tableMod v i f).get i = f (v.get i) := by
  simp [tableMod, Vector.get_eq_getElem]

theorem tableMod_get_of_ne {α : Type} {n : Nat} (v : Vector α n) (i j : Fin n) (f : α → α) (h : j ≠ i) :
    (tableMod v i f).get j = v.get j := by
  have : i.val ≠ j.val := fun e => h (Fin.ext e.symm)
  simp [tableMod, Vector.get_eq_getElem, this]

theorem tableMod_get {α : Type} {n : Nat} (v : Vector α n) (i j : Fin n) (f : α → α) :
    (tableMod v i f).get j = if j = i then f (v.get i) else v.get j := by
  split
  · subst j; exact tableMod_get_self v i f
  · exact tableMod_get_of_ne v i j f ‹_›

/-- Two changes of one entry are one change. -/
@[simp] theorem tableMod_tableMod {α : Type} {n : Nat} (v : Vector α n) (i : Fin n) (f g : α → α) :
    tableMod (tableMod v i f) i g = tableMod v i (fun x => g (f x)) := by
  simp [tableMod, Vector.get_eq_getElem]

/-- A change that leaves the entry as it is leaves the table. -/
theorem tableMod_id {α : Type} {n : Nat} (v : Vector α n) (i : Fin n) (f : α → α) (h : f (v.get i) = v.get i) :
    tableMod v i f = v := by
  rw [tableMod, h, Vector.get_eq_getElem, Vector.set_getElem_self]

/-- Changes that give the entry the same value give the same table. -/
theorem tableMod_congr {α : Type} {n : Nat} (v : Vector α n) (i : Fin n) (f g : α → α) (h : f (v.get i) = g (v.get i)) :
    tableMod v i f = tableMod v i g := by
  rw [tableMod, tableMod, h]

@[simp] theorem State.lane_modLane_self (l : Lane) (f : LaneRecord → LaneRecord) :
    (s.modLane l f).lane l = f (s.lane l) := tableMod_get_self _ _ _
theorem State.lane_modLane (l m : Lane) (f : LaneRecord → LaneRecord) :
    (s.modLane l f).lane m = if m = l then f (s.lane l) else s.lane m := tableMod_get _ _ _ _
@[simp] theorem State.channel_modChannel_self (l : Lane) (f : Channel → Channel) :
    (s.modChannel l f).channel l = f (s.channel l) := tableMod_get_self _ _ _
theorem State.channel_modChannel (l m : Lane) (f : Channel → Channel) :
    (s.modChannel l f).channel m = if m = l then f (s.channel l) else s.channel m := tableMod_get _ _ _ _
@[simp] theorem State.drive_modDrive_self (l : Lane) (f : Drive → Drive) :
    (s.modDrive l f).drive l = f (s.drive l) := tableMod_get_self _ _ _
theorem State.drive_modDrive (l m : Lane) (f : Drive → Drive) :
    (s.modDrive l f).drive m = if m = l then f (s.drive l) else s.drive m := tableMod_get _ _ _ _

end Sys2Proof.Machine
end

