-- ==== Sys2Proof/Laws/Ops.lean ====
section
/-! SUPPORT. What each shared operation can do, said once: the forms every command's meaning has, reached counts, the
passing of time, the operation over all lanes, and the belt list. Later proofs cite these in place of unfolding. -/

namespace Sys2Proof.Machine

open Sys2Proof.Safety

/-! ### The forms of a meaning -/

/-- An event of a running part has its effect. -/
theorem State.event_running {s : State} (h : s.inReset = none) (f : State → State) : s.event f = .next (f s) := by
  simp [State.event, h]

/-- An event is not taken through a reset. -/
theorem State.event_inReset {s : State} {c : ResetCause} (h : s.inReset = some c) (f : State → State) :
    s.event f = .next s := by
  simp [State.event, h]

/-- Every event answers a next state. -/
theorem State.event_completes (s : State) (f : State → State) : ∃ t, s.event f = .next t := by
  unfold State.event; split <;> exact ⟨_, rfl⟩

/-- With a frame taken the frame fields are as they are, so a second frame taken changes none of them. -/
@[simp] theorem State.frameDone_idem (s : State) : s.frameDone.frameDone = s.frameDone := rfl

/-- Two states that differ in the frame fields alone take a command alike. -/
theorem State.takeCommand_congr {s t : State} (h : s.frameDone = t.frameDone) (f : State → State × Answer) :
    s.takeCommand f = t.takeCommand f := by
  simp only [State.takeCommand, h]

/-- Two states that differ in the frame fields alone take a broadcast command alike. -/
theorem State.takeBroadcast_congr {s t : State} (h : s.frameDone = t.frameDone) (f : State → State × Answer) :
    s.takeBroadcast f = t.takeBroadcast f := by
  simp only [State.takeBroadcast, h]

/-- A listening station takes its frame. -/
theorem State.station_listening {s : State} (h : Listening s) (f : State → State × Answer) :
    s.station f = .next (s.takeCommand f) := by
  have hn : ¬ s.sli.address = 0#5 := h.addressed
  simp only [State.station, State.event_running h.running, State.sdeAsserted, h.silent, State.cancelReply, h.nothingDue]
  simp [hn]

/-- A listening station takes a command and answers it. -/
theorem State.station_answered {s t : State} {f : State → State × Answer} {st : Status} {data : List Byte}
    (h : Listening s) (hf : f s.frameDone = (t.frameDone, { status := st, data := data }))
    (ha : t.sli.address = s.sli.address) : s.station f = .next (answered t st data) := by
  have hn : ¬ t.sli.address = 0#5 := ha ▸ h.addressed
  rw [State.station_listening h, State.takeCommand, hf]
  have e : t.frameDone.replyDue { status := st, data := data } = answered t st data := by
    unfold State.replyDue
    rw [if_neg (show ¬ t.frameDone.sli.address = 0 from hn)]
    rfl
  exact congrArg _ e

/-- A listening station takes a broadcast command without reply. -/
theorem State.broadcasting_listening {s : State} (h : Listening s) (f : State → State × Answer) :
    s.broadcasting f = .next (f s.frameDone).1 := by
  simp only [State.broadcasting, State.event_running h.running, State.sdeAsserted, h.silent, State.cancelReply,
    h.nothingDue, State.takeBroadcast]
  rfl

/-- A station strapped to address 0 takes no frame of its own. -/
theorem State.station_unaddressed {s : State} (h : s.sli.address = 0) (f : State → State × Answer) :
    s.station f = .next s := by
  unfold State.station State.event; split <;> simp [h]

/-- While SDE is asserted no frame is taken. -/
theorem State.station_sending {s : State} {r : Reply} (h : s.sli.sending = some r) (f : State → State × Answer) :
    s.station f = .next s := by
  unfold State.station State.event; split <;> simp [State.sdeAsserted, h]

/-- What a station takes: nothing, or a command on a state in which no reply is due. -/
theorem State.station_cases {s t : State} {f : State → State × Answer} (h : s.station f = .next t) :
    t = s ∨ t = s.cancelReply.takeCommand f := by
  unfold State.station State.event at h
  split at h
  · left; simpa using h.symm
  · simp only [Host.Outcome.next.injEq] at h
    split at h
    · left; exact h.symm
    · right; exact h.symm

/-! ### Counts (R4) -/

/-- A count is reached in half the circle. -/
theorem isReached_iff (now x : Count) : isReached now x = true ↔ (now - x).toNat < 32768 := by simp [isReached]

/-- Reached is a signed difference of 0 or more. -/
theorem isReached_iff_signedDiff (now x : Count) : isReached now x = true ↔ 0 ≤ signedDiff x now := by
  simp only [signedDiff, isReached, BitVec.toInt_eq_toNat_cond, decide_eq_true_eq]
  have := (now - x).isLt
  split <;> constructor <;> intro h <;> omega

/-- A count that lies ahead by a distance below half the circle is not reached. -/
theorem isReached_ahead (now : Count) (n : Nat) (h : 0 < n) (h' : n ≤ 32767) :
    isReached now (now + toCount n) = false := by
  have : ¬ (now - (now + toCount n)).toNat < 32768 := by
    simp only [toCount, BitVec.toNat_sub, BitVec.toNat_add, BitVec.toNat_ofNat]; omega
  simpa [isReached] using this

/-! ### All lanes -/

theorem mem_allLanes : ∀ l : Lane, l ∈ allLanes := by decide

/-- What holds before an operation over all lanes, and is kept by each lane's turn, holds after it. -/
theorem State.forLanes_keeps {P : State → Prop} {f : State → Lane → State} (s : State) (h : P s)
    (hf : ∀ s l, P s → P (f s l)) : P (s.forLanes f) := by
  unfold State.forLanes
  have : ∀ (ls : List Lane) (s : State), P s → P (ls.foldl f s) := by
    intro ls
    induction ls with
    | nil => intro s h; exact h
    | cons l ls ih => intro s h; exact ih _ (hf s l h)
  exact this _ s h

/-- Lanes whose turn changes nothing leave the state. -/
theorem State.forLanes_id {f : State → Lane → State} (s : State) (h : ∀ l, f s l = s) : s.forLanes f = s := by
  unfold State.forLanes
  have : ∀ ls : List Lane, ls.foldl f s = s := by
    intro ls
    induction ls with
    | nil => rfl
    | cons l ls ih => rw [List.foldl_cons, h, ih]
  exact this _

/-- When one lane's turn alone changes the state, and the turns of the others change neither it nor its result, the
operation over all lanes is that turn. -/
theorem State.forLanes_one {f : State → Lane → State} (s : State) (l : Lane) (h : ∀ m, m ≠ l → f s m = s)
    (h' : ∀ m, m ≠ l → f (f s l) m = f s l) : s.forLanes f = f s l := by
  have key : ∀ ls : List Lane, ls.Nodup →
      ls.foldl f s = (if l ∈ ls then f s l else s) ∧ (l ∉ ls → ls.foldl f (f s l) = f s l) := by
    intro ls
    induction ls with
    | nil => intro _; exact ⟨rfl, fun _ => rfl⟩
    | cons m ls ih =>
      intro hn
      obtain ⟨hm, hn⟩ := List.nodup_cons.mp hn
      obtain ⟨i1, i2⟩ := ih hn
      by_cases e : m = l
      · subst e
        refine ⟨?_, fun hc => absurd (List.mem_cons_self) hc⟩
        simpa using i2 hm
      · refine ⟨?_, ?_⟩
        · rw [List.foldl_cons, h m e, i1]; simp [Ne.symm e]
        · intro hc
          rw [List.foldl_cons, h' m e]; exact i2 (fun hx => hc (List.mem_cons_of_mem _ hx))
  have := (key allLanes (by decide)).1
  simpa [State.forLanes, mem_allLanes l] using this

/-- After every lane's turn, each lane's own property holds, when its turn brings it about and no later turn undoes it. -/
theorem State.forLanes_each {P : Lane → State → Prop} {f : State → Lane → State} (s : State)
    (make : ∀ s l, P l (f s l)) (keep : ∀ s l m, P l s → P l (f s m)) (l : Lane) : P l (s.forLanes f) := by
  have key : ∀ (ls : List Lane) (s : State), (l ∈ ls ∨ P l s) → P l (ls.foldl f s) := by
    intro ls
    induction ls with
    | nil => intro s h; simpa using h
    | cons m ls ih =>
      intro s h
      rw [List.foldl_cons]
      apply ih
      by_cases e : m = l
      · subst e; exact .inr (make s m)
      · rcases h with h | h
        · rcases List.mem_cons.mp h with h | h
          · exact absurd h.symm e
          · exact .inl h
        · exact .inr (keep s l m h)
  exact key allLanes s (.inl (mem_allLanes l))

/-! ### The belt list -/

/-- The ticket found in a slot stands in that slot and on the belt. -/
theorem State.ticketAt?_some {s : State} {k : Slot} {t : Ticket} (h : s.ticketAt? k = some t) :
    t ∈ s.tt.belt ∧ t.slot = k := by
  unfold State.ticketAt? at h
  exact ⟨List.mem_of_find?_eq_some h, by simpa using List.find?_some h⟩

/-- With slots distinct, the ticket found in its slot is itself. -/
theorem State.ticketAt?_of_mem {s : State} {t : Ticket} (hd : SlotsDistinct s) (h : t ∈ s.tt.belt) :
    s.ticketAt? t.slot = some t := by
  unfold State.ticketAt? SlotsDistinct at *
  revert hd h
  generalize s.tt.belt = b
  intro hd h
  induction b with
  | nil => simp at h
  | cons u b ih =>
    simp only [List.map_cons, List.nodup_cons] at hd
    rcases List.mem_cons.mp h with h | h
    · subst h; simp
    · have : u.slot ≠ t.slot := fun e => hd.1 (by rw [e]; exact List.mem_map_of_mem h)
      simp [this, ih hd.2 h]

/-- An empty slot has no ticket. -/
theorem State.ticketAt?_none {s : State} {k : Slot} : s.ticketAt? k = none ↔ ∀ t ∈ s.tt.belt, t.slot ≠ k := by
  simp [State.ticketAt?]

/-- A change of a ticket's record leaves the slots. -/
theorem State.slots_modTicket (s : State) (k : Slot) (f : Ticket → Ticket) (h : ∀ t, (f t).slot = t.slot) :
    (s.modTicket k f).tt.belt.map Ticket.slot = s.tt.belt.map Ticket.slot := by
  simp only [State.belt_modTicket, List.map_map]
  apply List.map_congr_left
  intro t _
  simp only [Function.comp_apply]; split <;> simp [h]

/-- The ticket of a slot after a change of the records. -/
theorem State.ticketAt?_modTicket (s : State) (k j : Slot) (f : Ticket → Ticket) (h : ∀ t, (f t).slot = t.slot) :
    (s.modTicket k f).ticketAt? j = (s.ticketAt? j).map (fun t => if t.slot = k then f t else t) := by
  simp only [State.ticketAt?, State.belt_modTicket, List.find?_map]
  congr 1
  apply List.find?_congr
  intro t _
  simp only [Function.comp_apply]; split <;> simp [h]

/-- Two changes of one ticket are one change. -/
theorem State.modTicket_modTicket (s : State) (k : Slot) (f g : Ticket → Ticket) (h : ∀ t, (f t).slot = t.slot) :
    (s.modTicket k f).modTicket k g = s.modTicket k (fun t => g (f t)) := by
  simp only [State.modTicket, List.map_map]
  congr 2
  apply List.map_congr_left
  intro t _
  simp only [Function.comp_apply]; split <;> simp [*]

end Sys2Proof.Machine
end

