-- ==== Sys2Proof/Laws/Blocks.lean ====
section
/-! SUPPORT. Frames and characters: lane and handle parameters, block writes and reads, and characters on the wire. -/

namespace Sys2Proof.Machine

open Sys2Proof.Safety

/-! ### Parameters -/

/-- A lane parameter 1 to 12 names its lane. -/
theorem laneParam?_eq {n : Nat} {l : Lane} (h : l.val + 1 = n) : laneParam? n = some l := by
  subst h; revert l; decide

/-- A lane parameter outside 1 to 12 names none. -/
theorem laneParam?_none {n : Nat} (h : n = 0 ∨ 12 < n) : laneParam? n = none := by
  unfold laneParam?
  rcases h with rfl | h
  · rfl
  · rw [dif_neg]; omega

@[simp] theorem byteOf_toNat (b : Byte) : byteOf b.toNat = b := by simp [byteOf]

/-- A handle that names a live ticket is in range and finds it. -/
theorem named?_eq {s : State} {slot gen : Byte} {t : Ticket} (hd : SlotsDistinct s) (ht : t ∈ s.tt.belt)
    (hs : t.slot.val = slot.toNat) (hg : t.generation.toNat = gen.toNat) :
    handleInRange slot gen = true ∧ s.named? slot gen = some t := by
  have h1 := t.slot.isLt
  have h2 := t.generation.isLt
  refine ⟨by simp [handleInRange]; omega, ?_⟩
  unfold State.named?
  cases hf : s.tt.belt.find? (fun t => t.slot.val == slot.toNat && t.generation.toNat == gen.toNat) with
  | none =>
    rw [List.find?_eq_none] at hf
    exact absurd (hf t ht) (by simp [hs, hg])
  | some u =>
    have hu := List.mem_of_find?_eq_some hf
    have e := List.find?_some hf
    simp only [Bool.and_eq_true, beq_iff_eq] at e
    have k : u.slot = t.slot := Fin.ext (e.1.trans hs.symm)
    have a := State.ticketAt?_of_mem hd hu
    rw [k, State.ticketAt?_of_mem hd ht] at a
    exact a.symm

/-- A handle that no live ticket has finds none. -/
theorem named?_none {s : State} {slot gen : Byte}
    (h : ∀ t ∈ s.tt.belt, t.slot.val = slot.toNat → t.generation.toNat ≠ gen.toNat) : s.named? slot gen = none := by
  unfold State.named?
  rw [List.find?_eq_none]
  intro t ht
  simp only [Bool.and_eq_true, beq_iff_eq, not_and]
  exact h t ht

/-! ### Blocks (R69 to R71, R74) -/

theorem blockCountOk_of {n : Nat} (h : 1 ≤ n) (h' : n ≤ 64) : blockCountOk n = true := by simp [blockCountOk, h, h']

theorem blockCountOk_not {n : Nat} (h : n = 0 ∨ 64 < n) : blockCountOk n = false := by simp [blockCountOk]; omega

/-- What a block write leaves in each entry of its table. -/
theorem writeFrom_get {α : Type} {n : Nat} (v : Vector α n) (i : Nat) (xs : List α) (j : Fin n) :
    (writeFrom v i xs).get j = if i ≤ j.val then (xs[j.val - i]?).getD (v.get j) else v.get j := by
  induction xs generalizing v i with
  | nil => simp [writeFrom]
  | cons x xs ih =>
    rw [writeFrom, ih]
    by_cases h : i < n
    · simp only [h, dif_pos]
      have e : (v.set i x h).get j = if j.val = i then x else v.get j := by
        simp [Vector.get_eq_getElem, Vector.getElem_set, eq_comm]
      rw [e]
      by_cases h1 : i + 1 ≤ j.val
      · have h4 : j.val - i = (j.val - (i + 1)) + 1 := by omega
        have h2 : i ≤ j.val := by omega
        have h3 : j.val ≠ i := by omega
        simp [h1, h2, h4, h3]
      · by_cases h2 : i = j.val
        · subst h2; simp
        · have h4 : ¬ i ≤ j.val := by omega
          have h3 : j.val ≠ i := by omega
          simp [h1, h4, h3]
    · have := j.isLt
      have a : ¬ i ≤ j.val := by omega
      have b : ¬ i + 1 ≤ j.val := by omega
      simp [h, a, b]

/-- A block whose records are all in range is decoded record by record. -/
theorem decodeBlock_ok {α β : Type} (f : α → Option β) (i : Nat) (rs : List α) (h : ∀ r ∈ rs, (f r).isSome) :
    ∃ xs, decodeBlock f i rs = .ok xs ∧ xs.length = rs.length ∧ ∀ (k : Nat) (r : α), rs[k]? = some r → xs[k]? = f r := by
  induction rs generalizing i with
  | nil => exact ⟨[], rfl, rfl, by simp⟩
  | cons r rs ih =>
    obtain ⟨xs, h1, h2, h3⟩ := ih (i + 1) (fun r hr => h r (List.mem_cons_of_mem _ hr))
    obtain ⟨x, hx⟩ := Option.isSome_iff_exists.mp (h r List.mem_cons_self)
    refine ⟨x :: xs, by simp [decodeBlock, hx, h1], by simp [h2], ?_⟩
    intro k q hq
    cases k with
    | zero => simp at hq; subst hq; simp [hx]
    | succ k => simp at hq ⊢; exact h3 k q hq

/-- A block with a record out of range names the first that failed. -/
theorem decodeBlock_error {α β : Type} (f : α → Option β) (i : Nat) (pre : List α) (r : α) (post : List α)
    (h : ∀ x ∈ pre, (f x).isSome) (hr : f r = none) : decodeBlock f i (pre ++ r :: post) = .error (i + pre.length) := by
  induction pre generalizing i with
  | nil => simp [decodeBlock, hr]
  | cons x pre ih =>
    obtain ⟨y, hy⟩ := Option.isSome_iff_exists.mp (h x List.mem_cons_self)
    have := ih (i + 1) (fun z hz => h z (List.mem_cons_of_mem _ hz))
    simp only [List.cons_append, decodeBlock, hy, this, List.length_cons]
    congr 1; omega

/-- A block write that passes its tests: what it stores, what it answers, and what every entry then holds. -/
theorem blockWrite_ok {α β : Type} {n : Nat} {s : State} (first : Byte) (rs : List α) (f : α → Option β)
    (entry : β → α → Bool) (v : Vector β n) (store : Vector β n → State) (h1 : 1 ≤ rs.length) (h2 : rs.length ≤ 64)
    (h3 : first.toNat + rs.length ≤ n) (hf : ∀ r ∈ rs, (f r).isSome) :
    ∃ xs, decodeBlock f first.toNat rs = .ok xs ∧ xs.length = rs.length ∧
      s.blockWrite first rs f entry v store = (store (writeFrom v first.toNat xs),
        { status := clampStatus ((xs.zip rs).any (fun p => entry p.1 p.2))
          data := [first, BitVec.ofNat 8 rs.length] }) ∧
      (∀ i : Fin n, (i.val < first.toNat ∨ first.toNat + rs.length ≤ i.val) →
        (writeFrom v first.toNat xs).get i = v.get i) ∧
      (∀ (i : Fin n) (r : α), first.toNat ≤ i.val → rs[i.val - first.toNat]? = some r →
        f r = some ((writeFrom v first.toNat xs).get i)) := by
  obtain ⟨xs, e, hl, hk⟩ := decodeBlock_ok f first.toNat rs hf
  have hi : blockInside 0 (n - 1) first.toNat rs.length = true := by simp [blockInside]; omega
  refine ⟨xs, e, hl, by simp [State.blockWrite, blockCountOk_of h1 h2, hi, e, blockChars, byteOf], ?_, ?_⟩
  · intro i hi; rw [writeFrom_get]; split
    · have : xs.length ≤ i.val - first.toNat := by omega
      simp [List.getElem?_eq_none this]
    · rfl
  · intro i r hi hr; rw [writeFrom_get, if_pos hi, hk _ _ hr]
    obtain ⟨x, hx⟩ := Option.isSome_iff_exists.mp (hf r (List.mem_of_getElem? hr))
    simp [hx]

/-- A block beyond its table is refused with the first index. -/
theorem blockWrite_outside {α β : Type} {n : Nat} {s : State} (first : Byte) (rs : List α) (f : α → Option β)
    (entry : β → α → Bool) (v : Vector β n) (store : Vector β n → State) (h1 : 1 ≤ rs.length) (h2 : rs.length ≤ 64)
    (h0 : 0 < n) (h3 : n < first.toNat + rs.length) :
    s.blockWrite first rs f entry v store = (s, { status := .badParam, data := [first] }) := by
  have hi : blockInside 0 (n - 1) first.toNat rs.length = false := by simp [blockInside]; omega
  simp [State.blockWrite, blockCountOk_of h1 h2, hi, State.refuseAt]

/-- A block read within its table. -/
theorem blockRead_ok {α : Type} {n : Nat} {s : State} (v : Vector α n) (chars : α → List Byte) (first c : Byte)
    (h1 : 1 ≤ c.toNat) (h2 : c.toNat ≤ 64) (h3 : first.toNat + c.toNat ≤ n) :
    s.blockRead first c v chars = (s,
      { status := .ok
        data := [first, c] ++ ((v.toList.drop first.toNat).take c.toNat).flatMap chars }) := by
  have hi : blockInside 0 (n - 1) first.toNat c.toNat = true := by simp [blockInside]; omega
  simp [State.blockRead, blockCountOk_of h1 h2, hi, State.answer, blockChars, readFrom]

/-- A block read beyond its table. -/
theorem blockRead_outside {α : Type} {n : Nat} {s : State} (v : Vector α n) (chars : α → List Byte) (first c : Byte)
    (h1 : 1 ≤ c.toNat) (h2 : c.toNat ≤ 64) (h0 : 0 < n) (h3 : n < first.toNat + c.toNat) :
    s.blockRead first c v chars = (s, { status := .badParam, data := [] }) := by
  have hi : blockInside 0 (n - 1) first.toNat c.toNat = false := by simp [blockInside]; omega
  simp [State.blockRead, blockCountOk_of h1 h2, hi, State.refuse, plain]

/-! ### Characters on the wire (R49, R168) -/

/-- A character made from a mark and a value carries that mark and value, without error. -/
@[simp] theorem lineCharOf_value (m : Bool) (v : Byte) : (lineCharOf m v).value = v := by revert v; revert m; decide

@[simp] theorem lineCharOf_marked (m : Bool) (v : Byte) : (lineCharOf m v).marked = m := by revert v; revert m; decide

@[simp] theorem lineCharOf_good (m : Bool) (v : Byte) : (lineCharOf m v).good = true := by
  have key : ∀ n : Nat, ((n + (n % 2 == 1).toNat) % 2 == 1) = false := by
    intro n; rcases Nat.mod_two_eq_zero_or_one n with h | h <;> simp [h]; omega
  simp only [lineCharOf, LineChar.good, LineChar.framingError, LineChar.parityError]
  simpa [LineChar.ones] using key _

end Sys2Proof.Machine
end

