-- ==== Sys2Proof/Laws/Steady.lean ====
section
/-! SUPPORT. What no ticket, lane or stroke operation ever touches, said once for each: the time base, a reset in
progress, the Belt Count Unit, the settings, the reader line, the catalogue, the carrier, the End Monitor, the
generations, the eye states, the guard, and all of the supervisory line but the flags, which are set and never cleared.
No such operation gives the belt list a new slot or another order. -/

namespace Sys2Proof.Machine

/-- The fields that the operations on tickets, lanes, channels and drives leave as they were. -/
structure Steady (s t : State) : Prop where
  xtal : t.xtal = s.xtal
  inReset : t.inReset = s.inReset
  bcu : t.bcu = s.bcu
  geo : t.geo = s.geo
  rli : t.rli = s.rli
  cat : t.cat = s.cat
  carrier : t.carrier = s.carrier
  em : t.em = s.em
  choices : t.choices = s.choices
  pending : t.pending = s.pending
  generations : t.tt.generations = s.tt.generations
  untracked : t.tt.untracked = s.tt.untracked
  eye : t.ind.eye = s.ind.eye
  nextTag : t.ind.nextTag = s.ind.nextTag
  guard : t.mc.guard = s.mc.guard
  cause : t.mc.cause = s.mc.cause
  sli : t.sli = { s.sli with flags := t.sli.flags }
  flags : s.sli.flags &&& t.sli.flags = s.sli.flags
  slots : (t.tt.belt.map Ticket.slot).Sublist (s.tt.belt.map Ticket.slot)

theorem Steady.refl (s : State) : Steady s s := by
  constructor <;> first | rfl | exact BitVec.and_self

/-- Distinct slots stay distinct. -/
theorem Steady.distinct {s t : State} (h : Steady s t) (hd : Safety.SlotsDistinct s) :
    Safety.SlotsDistinct t := h.slots.nodup hd

/-- A flag that is set stays set. -/
theorem Steady.flagSet {s t : State} (h : Steady s t) {f : Flag} (hf : s.flagSet f = true) : t.flagSet f = true := by
  unfold State.flagSet at hf ⊢
  rw [← h.flags] at hf
  simp only [bne_iff_ne, ne_eq] at hf ⊢
  intro e
  apply hf
  rw [BitVec.and_assoc, e]; exact BitVec.and_zero

theorem Steady.trans {s t u : State} (h : Steady s t) (k : Steady t u) : Steady s u where
  xtal := k.xtal.trans h.xtal
  inReset := k.inReset.trans h.inReset
  bcu := k.bcu.trans h.bcu
  geo := k.geo.trans h.geo
  rli := k.rli.trans h.rli
  cat := k.cat.trans h.cat
  carrier := k.carrier.trans h.carrier
  em := k.em.trans h.em
  choices := k.choices.trans h.choices
  pending := k.pending.trans h.pending
  generations := k.generations.trans h.generations
  untracked := k.untracked.trans h.untracked
  eye := k.eye.trans h.eye
  nextTag := k.nextTag.trans h.nextTag
  guard := k.guard.trans h.guard
  cause := k.cause.trans h.cause
  sli := by rw [k.sli, h.sli]
  flags := by rw [← h.flags, BitVec.and_assoc, k.flags]
  slots := k.slots.trans h.slots

/-- Steadiness is kept by an operation over all lanes whose turns are steady. -/
theorem Steady.forLanes {f : State → Lane → State} (h : ∀ s l, Steady s (f s l)) (s : State) :
    Steady s (s.forLanes f) :=
  State.forLanes_keeps (P := Steady s) s (Steady.refl s) (fun t l ht => ht.trans (h t l))

/-! ### Single updates -/

theorem Steady.raise (s : State) (f : Flag) : Steady s (s.raise f) := by
  constructor <;> first | rfl | exact List.Sublist.refl _ | skip
  change s.sli.flags &&& (s.sli.flags ||| _) = s.sli.flags
  ext i hi; simp +contextual
/-- A record changed with its slot kept. -/
theorem Steady.modTicket (s : State) (k : Slot) (f : Ticket → Ticket)
    (h : ∀ t, (f t).slot = t.slot := by intro t; first | rfl | (split <;> rfl)) :
    Steady s (s.modTicket k f) := by
  constructor <;> first | rfl | exact BitVec.and_self | skip
  rw [State.slots_modTicket s k f h]
theorem Steady.modLane (s : State) (l : Lane) (f : LaneRecord → LaneRecord) : Steady s (s.modLane l f) := by
  constructor <;> first | rfl | exact BitVec.and_self
theorem Steady.modChannel (s : State) (l : Lane) (f : Channel → Channel) : Steady s (s.modChannel l f) := by
  constructor <;> first | rfl | exact BitVec.and_self
theorem Steady.modDrive (s : State) (l : Lane) (f : Drive → Drive) : Steady s (s.modDrive l f) := by
  constructor <;> first | rfl | exact BitVec.and_self
theorem Steady.setMode (s : State) (m : Mode) : Steady s (s.setMode m) := by
  constructor <;> first | rfl | exact BitVec.and_self
theorem Steady.tally (s : State) (o : Option Outlet) (c : TicketOutcome) : Steady s (s.tally o c) := by
  constructor <;> first | rfl | exact BitVec.and_self
theorem Steady.release (s : State) (l : Lane) : Steady s (s.release l) := by
  constructor <;> first | rfl | exact BitVec.and_self
theorem Steady.endStroking (s : State) (l : Lane) (m : Marks → Marks) : Steady s (s.endStroking l m) := by
  constructor <;> first | rfl | exact BitVec.and_self | skip
  have : (s.endStroking l m).tt.belt.map Ticket.slot = s.tt.belt.map Ticket.slot := by
    simp only [State.endStroking, List.map_map]
    apply List.map_congr_left
    intro t _; simp only [Function.comp]; split <;> rfl
  rw [this]
theorem Steady.closeChannel (s : State) (l : Lane) : Steady s (s.closeChannel l) := by
  constructor <;> first | rfl | exact BitVec.and_self
theorem Steady.storeBounds (s : State) (k : Slot) : Steady s (s.storeBounds k) :=
  Steady.modTicket _ _ _
theorem Steady.arm (s : State) (l : Lane) (t : Ticket) : Steady s (s.arm l t) :=
  (Steady.modChannel _ _ _).trans (Steady.modTicket _ _ _)
theorem Steady.takeFire (s : State) (l : Lane) (t : Ticket) : Steady s (s.takeFire l t) :=
  (Steady.modChannel _ _ _).trans (Steady.modTicket _ _ _)
theorem Steady.startStroke (s : State) (l : Lane) (k : StrokeKind) : Steady s (s.startStroke l k) := by
  constructor <;> first | rfl | exact BitVec.and_self
theorem Steady.driveRecover (s : State) (l : Lane) : Steady s (s.driveRecover l) := by
  constructor <;> first | rfl | exact BitVec.and_self
theorem Steady.giveLane (s : State) (k : Slot) (c : WareClass) (l : Lane) (r : Reason) (n : Nat) :
    Steady s (s.giveLane k c l r n) :=
  (Steady.modLane _ _ _).trans (Steady.modTicket _ _ _)
theorem Steady.writeJoined (s : State) (k : Slot) (b : Bool) : Steady s (s.writeJoined k b) :=
  Steady.modTicket _ _ _

/-! ### Tickets -/

theorem Steady.releaseOf (s : State) (t : Ticket) : Steady s (s.releaseOf t) := by
  unfold State.releaseOf; split
  · exact Steady.release _ _
  · exact Steady.refl _

theorem Steady.countRunOff (s : State) (r : Reason) : Steady s (s.countRunOff r) := by
  unfold State.countRunOff; split
  · constructor <;> first | rfl | exact BitVec.and_self
  · exact Steady.refl _

theorem Steady.disarm (s : State) (l : Lane) : Steady s (s.disarm l) := by
  unfold State.disarm; split
  · exact Steady.refl _
  · exact (Steady.modChannel _ _ _).trans (Steady.modTicket _ _ _)

theorem Steady.disarmOf (s : State) (t : Ticket) : Steady s (s.disarmOf t) := by
  unfold State.disarmOf; split
  · split
    · exact Steady.disarm _ _
    · exact Steady.refl _
  · exact Steady.refl _

theorem Steady.remove (s : State) (t : Ticket) (o : TicketOutcome) : Steady s (s.remove t o) := by
  have h := ((Steady.disarmOf s t).trans (Steady.releaseOf _ t)).trans (Steady.tally _ t.outlet o)
  unfold State.remove
  refine h.trans ?_
  constructor <;> first | rfl | exact BitVec.and_self | exact List.filter_sublist.map _ | (dsimp only; split <;> rfl)

theorem Steady.enterSetup (s : State) : Steady s s.enterSetup := by
  refine (Steady.setMode s .setup).trans (Steady.forLanes ?_ _)
  intro s l; split
  · exact (Steady.modChannel _ _ _).trans (Steady.driveRecover _ _)
  · exact Steady.refl _

theorem Steady.drainCheck (s : State) : Steady s s.drainCheck := by
  unfold State.drainCheck; split
  · exact Steady.enterSetup _
  · exact Steady.refl _

theorem Steady.retire (s : State) (k : Slot) (o : TicketOutcome) : Steady s (s.retire k o) := by
  unfold State.retire; split
  · exact Steady.refl _
  · exact (Steady.remove _ _ _).trans (Steady.drainCheck _)

theorem Steady.flush (s : State) : Steady s s.flush := by
  unfold State.flush
  have : ∀ (ts : List Ticket) (u : State), Steady s u →
      Steady s (ts.foldl (fun s t => s.remove t .flushed) u) := by
    intro ts
    induction ts with
    | nil => intro u h; exact h
    | cons t ts ih => intro u h; exact ih _ (h.trans (Steady.remove _ _ _))
  exact this _ _ (Steady.refl s)

theorem Steady.enterRunningOff (s : State) (k : Slot) : Steady s (s.enterRunningOff k) := by
  unfold State.enterRunningOff
  refine (Steady.storeBounds s k).trans ?_
  dsimp only; split
  · exact Steady.retire _ _ _
  · exact Steady.refl _

theorem Steady.sendToRunOff (s : State) (k : Slot) (r : Reason) : Steady s (s.sendToRunOff k r) :=
  ((Steady.modTicket _ _ _).trans (Steady.countRunOff _ _)).trans (Steady.enterRunningOff _ _)

/-! ### Diverts -/

theorem Steady.beginStroke (s : State) (l : Lane) (t : Ticket) : Steady s (s.beginStroke l t) :=
  ((Steady.takeFire _ _ _).trans (Steady.modChannel _ _ _)).trans (Steady.startStroke _ _ _)

theorem Steady.extendStroke (s : State) (l : Lane) (t : Ticket) : Steady s (s.extendStroke l t) := by
  unfold State.extendStroke; split
  · exact (Steady.takeFire _ _ _).trans (Steady.modChannel _ _ _)
  · exact ((Steady.takeFire _ _ _).trans (Steady.modChannel _ _ _)).trans (Steady.modDrive _ _ _)

theorem Steady.deferFire (s : State) (l : Lane) (t : Ticket) : Steady s (s.deferFire l t) :=
  (Steady.modTicket _ _ _).trans (Steady.modChannel _ _ _)

theorem Steady.missFire (s : State) (l : Lane) (t : Ticket) : Steady s (s.missFire l t) :=
  ((Steady.modChannel _ _ _).trans (Steady.releaseOf _ _)).trans (Steady.sendToRunOff _ _ _)

theorem Steady.fire (s : State) (l : Lane) (late : Bool) : Steady s (s.fire l late) := by
  unfold State.fire; split
  · exact Steady.refl _
  · rename_i t _
    have h : Steady s (if late then
        s.modTicket t.slot (fun t => { t with marks := { t.marks with late := true } }) else s) := by
      split
      · exact Steady.modTicket _ _ _
      · exact Steady.refl _
    refine h.trans ?_
    generalize (if late then
        s.modTicket t.slot (fun t => { t with marks := { t.marks with late := true } }) else s) = u
    dsimp only
    split
    · exact Steady.refl _
    · exact Steady.missFire _ _ _
    all_goals
      split
      · exact Steady.beginStroke _ _ _
      · exact Steady.extendStroke _ _ _
      · exact Steady.extendStroke _ _ _
      · exact Steady.deferFire _ _ _

theorem Steady.attend (n : Nat) (s : State) (l : Lane) : Steady s (s.attend n l) := by
  induction n generalizing s with
  | zero => exact Steady.refl _
  | succ n ih =>
    unfold State.attend; split
    · exact Steady.refl _
    · split
      · split
        · exact Steady.refl _
        · exact (Steady.disarm _ _).trans (ih _)
      · split
        · exact ((Steady.arm _ _ _).trans (Steady.fire _ _ _)).trans (ih _)
        · exact Steady.arm _ _ _

theorem Steady.attendLane (s : State) (l : Lane) : Steady s (s.attendLane l) := Steady.attend _ _ _

theorem Steady.attendAll (s : State) : Steady s s.attendAll := Steady.forLanes Steady.attendLane s

theorem Steady.takeDueFire (s : State) (l : Lane) : Steady s (s.takeDueFire l) :=
  (Steady.fire _ _ _).trans (Steady.attendLane _ _)

theorem Steady.recomputeLane (s : State) (l : Lane) : Steady s (s.recomputeLane l) := by
  unfold State.recomputeLane; split
  · exact Steady.refl _
  · split
    · dsimp only; split
      · exact (((Steady.modChannel _ _ _).trans (Steady.modTicket _ _ _)).trans (Steady.fire _ _ _)).trans
          (Steady.attendLane _ _)
      · exact (Steady.modChannel _ _ _).trans (Steady.modTicket _ _ _)
    all_goals exact Steady.refl _

theorem Steady.recomputeLeads (s : State) : Steady s s.recomputeLeads := Steady.forLanes Steady.recomputeLane s

theorem Steady.judgeDeferred (s : State) (l : Lane) : Steady s (s.judgeDeferred l) := by
  have miss : ∀ t, Steady s ((s.missFire l t).attendLane l) := fun t =>
    (Steady.missFire _ _ _).trans (Steady.attendLane _ _)
  have begin' : ∀ t, Steady s ((s.beginStroke l t).attendLane l) := fun t =>
    (Steady.beginStroke _ _ _).trans (Steady.attendLane _ _)
  unfold State.judgeDeferred
  split
  · split
    · exact Steady.refl _
    · split
      · exact Steady.refl _
      · exact miss _
      · split
        · exact miss _
        · exact begin' _
      · split
        · exact miss _
        · exact begin' _
  all_goals exact Steady.refl _

theorem Steady.recoverLane (s : State) (l : Lane) : Steady s (s.recoverLane l) := by
  unfold State.recoverLane
  refine (Steady.driveRecover s l).trans ?_
  dsimp only; split
  · exact Steady.judgeDeferred _ _
  · exact Steady.refl _

theorem Steady.endRecovery (s : State) (l : Lane) : Steady s (s.endRecovery l) :=
  (Steady.modDrive _ _ _).trans (Steady.judgeDeferred _ _)

theorem Steady.strokeEnds (s : State) (l : Lane) : Steady s (s.strokeEnds l) := by
  unfold State.strokeEnds
  refine ((Steady.closeChannel s l).trans (Steady.endStroking _ l id)).trans ?_
  dsimp only; split
  · exact Steady.recoverLane _ _
  · exact Steady.modDrive _ _ _
  · exact Steady.refl _
  · exact Steady.refl _

theorem Steady.capStroke (s : State) (l : Lane) : Steady s (s.capStroke l) := by
  unfold State.capStroke; split
  · exact ((Steady.endStroking _ _ _).trans (Steady.closeChannel _ _)).trans (Steady.recoverLane _ _)
  · exact Steady.recoverLane _ _
  · exact Steady.recoverLane _ _

theorem Steady.abortLane (s : State) (l : Lane) : Steady s (s.abortLane l) := by
  unfold State.abortLane; split
  · exact ((Steady.endStroking _ _ _).trans (Steady.closeChannel _ _)).trans (Steady.recoverLane _ _)
  · exact Steady.refl _

theorem Steady.endTestStrokes (s : State) : Steady s s.endTestStrokes := by
  refine Steady.forLanes ?_ s
  intro s l; split
  · exact Steady.driveRecover _ _
  · exact Steady.refl _

theorem Steady.enterHold (s : State) (h : HeldFrom) : Steady s (s.enterHold h) :=
  ((Steady.setMode _ _).trans (Steady.raise _ _)).trans (Steady.forLanes Steady.abortLane _)

/-! ### Resolution and lane states -/

theorem Steady.writeWalk (s : State) (k : Slot) (c : WareClass) (w : WalkEnd) : Steady s (s.writeWalk k c w) := by
  unfold State.writeWalk; split
  · exact Steady.giveLane _ _ _ _ _ _
  · exact (Steady.modTicket _ _ _).trans (Steady.sendToRunOff _ _ _)

theorem Steady.split (s : State) (k : Slot) : Steady s (s.split k) := by
  unfold State.split; split
  · exact Steady.refl _
  · split
    · exact ((Steady.disarmOf _ _).trans (Steady.releaseOf _ _)).trans (Steady.sendToRunOff _ _ _)
    · exact Steady.refl _

theorem Steady.judgePair (s : State) (passing : List Slot) (x y : Slot) : Steady s (s.judgePair passing x y) := by
  unfold State.judgePair; split
  · split
    · exact Steady.refl _
    · split
      · split
        · exact Steady.writeJoined _ _ _
        · exact ((Steady.writeJoined _ _ _).trans (Steady.split _ _)).trans (Steady.split _ _)
      · exact Steady.writeJoined _ _ _
  all_goals exact Steady.refl _

theorem Steady.crowd (s : State) (k : Slot) (passing : List Slot) : Steady s (s.crowd k passing) := by
  unfold State.crowd
  dsimp only
  split <;> split
  · exact (Steady.judgePair _ _ _ _).trans (Steady.judgePair _ _ _ _)
  · exact Steady.judgePair _ _ _ _
  · exact Steady.judgePair _ _ _ _
  · exact Steady.refl _

theorem Steady.streak (s : State) (c : Cause) : Steady s (s.streak c) := by
  unfold State.streak; split
  · constructor <;> first | rfl | exact BitVec.and_self
  · have h : ∀ n, Steady s { s with ind := { s.ind with noReadStreak := n } } := by
      intro n; constructor <;> first | rfl | exact BitVec.and_self
    dsimp only; split
    · exact (h _).trans (Steady.raise _ _)
    · exact h _

theorem Steady.resolve (s : State) (k : Slot) (c : Cause) : Steady s (s.resolve k c) := by
  unfold State.resolve; split
  · exact Steady.refl _
  · split
    · exact ((((Steady.streak _ _).trans (Steady.modTicket _ _ _)).trans (Steady.writeWalk _ _ _ _)).trans
        (Steady.crowd _ _ _)).trans (Steady.attendAll _)
    · exact Steady.refl _

theorem Steady.reresolve (s : State) (l : Lane) (k : Slot) (passing : List Slot) :
    Steady s (s.reresolve l k passing) := by
  unfold State.reresolve; split
  · exact Steady.refl _
  · split
    · exact (((Steady.disarmOf _ _).trans (Steady.releaseOf _ _)).trans (Steady.writeWalk _ _ _ _)).trans
        (Steady.crowd _ _ _)
    · exact Steady.refl _

theorem Steady.passOver (s : State) (l : Lane) (ks : List Slot) : Steady s (s.passOver l ks) := by
  induction ks generalizing s with
  | nil => exact Steady.refl _
  | cons k ks ih => exact (Steady.reresolve _ _ _ _).trans (ih _)

theorem Steady.reresolutionPass (s : State) (l : Lane) : Steady s (s.reresolutionPass l) :=
  (Steady.passOver _ _ _).trans (Steady.attendAll _)

theorem Steady.changeLaneState (s : State) (l : Lane) (new : LaneState) : Steady s (s.changeLaneState l new) := by
  have k := Steady.modLane s l (fun r => { r with state := new })
  unfold State.changeLaneState
  cases new <;> dsimp only
  · split
    · exact k.trans (Steady.reresolutionPass _ _)
    · exact k
  · split
    · exact k.trans (Steady.reresolutionPass _ _)
    · exact k
  · have k' := k.trans (Steady.raise _ .laneFull)
    split <;> split
    · exact k.trans (Steady.reresolutionPass _ _)
    · exact k'.trans (Steady.reresolutionPass _ _)
    · exact k
    · exact k'
  · have k' := k.trans (Steady.raise _ .laneFault)
    split <;> split
    · exact k.trans (Steady.reresolutionPass _ _)
    · exact k'.trans (Steady.reresolutionPass _ _)
    · exact k
    · exact k'

theorem Steady.addFill (s : State) (l : Lane) : Steady s (s.addFill l) := by
  unfold State.addFill
  refine (Steady.modLane s l (fun r => { r with fill := satInc 999 r.fill })).trans ?_
  dsimp only; split
  · exact Steady.changeLaneState _ _ _
  · exact Steady.refl _

theorem Steady.countFailure (s : State) (l : Lane) : Steady s (s.countFailure l) := by
  unfold State.countFailure
  refine (Steady.modLane s l (fun r => { r with failures := satInc 15 r.failures })).trans ?_
  dsimp only; split
  · exact Steady.changeLaneState _ _ _
  · exact Steady.refl _

theorem Steady.expireEnd (s : State) (k : Slot) : Steady s (s.expireEnd k) := by
  unfold State.expireEnd; split
  · exact Steady.refl _
  · split <;> first
      | exact (Steady.retire _ _ _).trans (Steady.addFill _ _)
      | exact Steady.retire _ _ _
      | exact Steady.refl _

theorem Steady.closeConfirm (s : State) (k : Slot) : Steady s (s.closeConfirm k) := by
  unfold State.closeConfirm; split
  · exact Steady.refl _
  · rename_i t _
    split
    · exact Steady.refl _
    · rename_i l _
      have k' : Steady s ((s.releaseOf t).modTicket k (fun t => { t with state := .doubt, closeCount := none })) :=
        (Steady.releaseOf s t).trans (Steady.modTicket _ _ _)
      dsimp only
      split <;> split
      · exact (k'.trans (Steady.storeBounds _ k)).trans (Steady.expireEnd _ _)
      · exact k'.trans (Steady.storeBounds _ k)
      · exact ((k'.trans (Steady.countFailure _ _)).trans (Steady.storeBounds _ k)).trans (Steady.expireEnd _ _)
      · exact (k'.trans (Steady.countFailure _ _)).trans (Steady.storeBounds _ k)

end Sys2Proof.Machine
end

