-- ==== Sys2Proof/Laws/Course.lean ====
section
/-! SUPPORT. The part's own course, said once: what no own event touches, what time passing with no command keeps and
when it is time alone, where it brings the carrier, and what a timer's row does at the timer's limit and when the timer
does not run. -/

namespace Sys2Proof.Machine

/-- What the passing of clocks, the taking of an own event and the counting of free values keep, the part's own course
keeps. -/
theorem State.passClocks_keeps {P : State → Prop} (elapse : ∀ s n, P s → P (s.elapse n))
    (take : ∀ s e, P s → P (s.takeOwn e)) (choose : ∀ s, P s → P { s with choices := s.choices + 1 }) :
    ∀ k n s, P s → P (s.passClocks k n) := by
  intro k
  induction k with
  | zero =>
    intro n s h
    cases n with
    | zero => exact h
    | succ n => exact elapse s _ h
  | succ k ih =>
    intro n s h
    cases n with
    | zero => exact h
    | succ n =>
      unfold State.passClocks
      cases hn : s.nextOwn with
      | none => exact ih _ _ (elapse _ _ h)
      | some p =>
        obtain ⟨e, t⟩ := p
        refine ih _ _ (take _ _ ?_)
        unfold State.nextOwn at hn
        split at hn
        · cases hn
        · cases hn; exact h
        · cases hn; exact choose _ h

theorem State.stretch_le (s : State) (n : Nat) : s.stretch n ≤ n := by
  unfold State.stretch; split
  · exact Nat.min_le_right _ _
  · exact Nat.le_refl _

/-- With no own event falling due before the end, time alone passes. -/
theorem State.runOn_quiet {s : State} {n : Nat} (h : Safety.QuietFor s (n + 1)) :
    s.runOn (n + 1) = s.elapse (n + 1) := by
  unfold State.runOn State.rounds
  have hn : s.nextOwn = none := by simp [State.nextOwn, h.nothingDue]
  rw [show 32 * s.tt.belt.length + 512 = (32 * s.tt.belt.length + 511) + 1 from rfl]
  have hs : s.stretch (n + 1) = n + 1 := by
    unfold State.stretch; split
    · exact Nat.min_eq_right (h.nothingSooner _ ‹_›)
    · rfl
  simp [State.passClocks, hn, hs]

/-- No clock passes for a moment that has come. -/
@[simp] theorem State.runOn_zero (s : State) : s.runOn 0 = s := by
  unfold State.runOn State.rounds State.passClocks
  rfl

@[simp] theorem State.clocksFor_zero (s : State) : s.clocksFor 0 = 0 := rfl

/-- A timer at its limit ends at once. -/
theorem State.awaitTimer_due {s : State} {t : OwnTimer} (h : s.timeLeft t = some 0) :
    s.awaitTimer t = s.takeTimer t := by
  simp [State.awaitTimer, State.onTimer, h]

/-- A timer that does not run has no end to wait for. -/
theorem State.awaitTimer_stopped {s : State} {t : OwnTimer} (h : s.timeLeft t = none) : s.awaitTimer t = s := by
  simp [State.awaitTimer, h]

/-! ### What no own event touches -/

/-- The fields that no own event of the part changes. -/
structure Apart (s t : State) : Prop where
  carrier : t.carrier = s.carrier
  cat : t.cat = s.cat
  geo : t.geo = s.geo
  em : t.em = s.em
  inReset : t.inReset = s.inReset
  pending : t.pending = s.pending

theorem Apart.refl (s : State) : Apart s s := ⟨rfl, rfl, rfl, rfl, rfl, rfl⟩

theorem Apart.trans {s t u : State} (h : Apart s t) (k : Apart t u) : Apart s u :=
  ⟨k.carrier.trans h.carrier, k.cat.trans h.cat, k.geo.trans h.geo, k.em.trans h.em, k.inReset.trans h.inReset,
    k.pending.trans h.pending⟩

theorem Steady.apart {s t : State} (h : Steady s t) : Apart s t :=
  ⟨h.carrier, h.cat, h.geo, h.em, h.inReset, h.pending⟩

/-- A change of the Belt Count Unit. -/
theorem Apart.bcu (s : State) (b : BeltCountUnit) : Apart s { s with bcu := b } := ⟨rfl, rfl, rfl, rfl, rfl, rfl⟩

theorem Apart.takeCapture (s : State) : Apart s s.takeCapture := by
  unfold State.takeCapture; split
  · exact Apart.refl _
  · exact (Apart.bcu s _).trans (Steady.recomputeLeads _).apart

theorem Apart.stopBelt (s : State) : Apart s s.stopBelt := by
  have h := Apart.takeCapture s
  unfold State.stopBelt
  generalize s.takeCapture = u at h ⊢
  exact (h.trans (Apart.bcu u _)).trans ((Steady.raise _ .beltStopped).trans (Steady.recomputeLeads _)).apart

theorem Apart.markOverlength (s : State) : Apart s s.markOverlength := by
  unfold State.markOverlength; split
  · exact Apart.refl _
  · exact ((Steady.modTicket _ _ _).trans (Steady.raise _ _)).apart

theorem Apart.endUnderEye (s : State) (n : Nat) : Apart s (s.endUnderEye n) := by
  unfold State.endUnderEye; split
  · exact Apart.refl _
  · rename_i slot _
    have h : Apart s ({ s with ind := { s.ind with underEye := none, blockedLength := 0 } }.modTicket slot
        (fun t => { t with length := some n })) := ⟨rfl, rfl, rfl, rfl, rfl, rfl⟩
    dsimp only; split
    · exact h
    · split
      · exact h.trans (Steady.resolve _ _ _).apart
      · split
        · exact (h.trans (Steady.modTicket _ _ _).apart).trans (Steady.resolve _ _ _).apart
        · exact h.trans (Steady.modTicket _ _ _).apart

theorem Apart.softReset (s : State) : Apart s s.softReset := by
  have h : Apart s s.flush.clearFailures :=
    ((Steady.flush s).trans (Steady.forLanes (fun _ _ => Steady.modLane _ _ _) _)).apart
  unfold State.softReset
  generalize s.flush.clearFailures = u at h ⊢
  exact h.trans ⟨rfl, rfl, rfl, rfl, rfl, rfl⟩

theorem Apart.takeReach (s : State) (r : CountReach) : Apart s (s.takeReach r) := by
  cases r with
  | capture => exact Apart.takeCapture s
  | holdLimit =>
    unfold State.takeReach State.reachHoldLimit; dsimp only; split
    · exact Apart.endUnderEye _ _
    · exact Apart.refl _
  | readWindow k =>
    unfold State.takeReach State.expireReadWindow; dsimp only; split
    · exact Apart.refl _
    · split
      · exact (Steady.resolve _ _ _).apart
      · exact Apart.refl _
  | fire l =>
    unfold State.takeReach State.onFireDue; dsimp only; split
    · exact (Steady.takeDueFire _ _).apart
    · exact Apart.refl _
  | strokeEnd l =>
    unfold State.takeReach State.onStrokeEnd; dsimp only; split
    · exact (Steady.strokeEnds _ _).apart
    · exact Apart.refl _
  | confirmClose k =>
    unfold State.takeReach State.onConfirmClose; dsimp only; split
    · exact Apart.refl _
    · split
      · exact (Steady.closeConfirm _ _).apart
      · exact Apart.refl _
  | endWindow k =>
    unfold State.takeReach State.onEndWindow; dsimp only; split
    · exact (Steady.expireEnd _ _).apart
    · exact Apart.refl _

theorem Apart.takeTimer (s : State) (t : OwnTimer) : Apart s (s.takeTimer t) := by
  cases t with
  | stop => exact Apart.stopBelt s
  | triggerSent => exact ⟨rfl, rfl, rfl, rfl, rfl, rfl⟩
  | readerGap => exact ⟨rfl, rfl, rfl, rfl, rfl, rfl⟩
  | pull l =>
    unfold State.takeTimer State.leavePull; dsimp only; split
    · exact (Steady.recoverLane _ _).apart
    · exact (Steady.modDrive _ _ _).apart
  | cap l => exact (Steady.capStroke _ _).apart
  | recovery l => exact (Steady.endRecovery _ _).apart
  | testEnd l =>
    unfold State.takeTimer State.takeTestEnd; dsimp only; split
    · exact (Steady.recoverLane _ _).apart
    · exact (Steady.modDrive _ _ _).apart
    · exact Apart.refl _
    · exact Apart.refl _
  | frameGap => exact ⟨rfl, rfl, rfl, rfl, rfl, rfl⟩
  | quiet => exact ⟨rfl, rfl, rfl, rfl, rfl, rfl⟩
  | replySent =>
    unfold State.takeTimer State.endReply; dsimp only; split
    · exact Apart.refl _
    · split
      · exact (show Apart s { s with sli := { s.sli with sending := none, sendTimer := 0 } } from
          ⟨rfl, rfl, rfl, rfl, rfl, rfl⟩).trans (Apart.softReset _)
      · exact ⟨rfl, rfl, rfl, rfl, rfl, rfl⟩

/-- A count event touches none of these either. -/
theorem Apart.countEvent (s : State) : Apart s s.countEvent := by
  unfold State.countEvent State.countBlocked; split
  · refine (show Apart s { s with bcu := s.bcu.countEvent, ind := { s.ind with
        blockedLength := satInc 1023 s.ind.blockedLength } } from ⟨rfl, rfl, rfl, rfl, rfl, rfl⟩).trans ?_
    exact Apart.markOverlength _
  · exact ⟨rfl, rfl, rfl, rfl, rfl, rfl⟩

/-- No own event touches the carrier, the catalogue, the geometry, the End Monitor, a reset in progress or the queue. -/
theorem State.takeOwn_apart (s : State) (e : OwnEvent) : Apart s (s.takeOwn e) := by
  cases e with
  | reach r => exact Apart.takeReach s r
  | triggerSend => unfold State.takeOwn State.beginTrigger; dsimp only; split <;> exact ⟨rfl, rfl, rfl, rfl, rfl, rfl⟩
  | timer t =>
    unfold State.takeOwn State.onTimer; dsimp only; split
    · exact Apart.takeTimer s t
    · exact Apart.refl _

/-! ### The carrier through the part's own course -/

/-- The passing of clocks leaves what no own event touches, but for the carrier, which it advances. -/
theorem State.elapse_apart {s : State} (h : s.inReset = none) (n : Nat) :
    (s.elapse n).carrier = (s.carrier.advance n).1 ∧ (s.elapse n).cat = s.cat ∧ (s.elapse n).geo = s.geo ∧
      (s.elapse n).em = s.em ∧ (s.elapse n).inReset = none ∧ (s.elapse n).pending = s.pending := by
  unfold State.elapse; rw [h]; dsimp only
  exact State.forLanes_keeps (P := fun t => t.carrier = (s.carrier.advance n).1 ∧ t.cat = s.cat ∧ t.geo = s.geo ∧
    t.em = s.em ∧ t.inReset = none ∧ t.pending = s.pending) _ ⟨rfl, rfl, rfl, rfl, rfl, rfl⟩ (fun _ _ k => k)

/-- Short of the end of its period the carrier's phase advances by the clocks that pass. -/
theorem Carrier.advance_within {c : Carrier} {n : Nat} (h : c.phase + n < carrierPeriod c.select) :
    (c.advance n).1 = { c with phase := c.phase + n } := by simp [Carrier.advance, h]

/-- At the end of its period the next begins, under the pending select if there is one (R131). -/
theorem Carrier.advance_end {c : Carrier} {n : Nat} (h : c.phase + n = carrierPeriod c.select) :
    (c.advance n).1 = { select := c.pending.getD c.select, pending := none, phase := 0 } := by
  simp [Carrier.advance, h]

/-- The part's own course over `n` clocks, up to the end of the period at most, brings the carrier where the clocks alone
bring it, and leaves the catalogue, the geometry, the End Monitor and the queue. -/
theorem State.passClocks_apart (k n : Nat) (s : State) (h : s.inReset = none)
    (hp : s.carrier.phase + n ≤ carrierPeriod s.carrier.select) :
    (s.passClocks k n).carrier = (if n = 0 then s.carrier else (s.carrier.advance n).1) ∧
      (s.passClocks k n).cat = s.cat ∧ (s.passClocks k n).geo = s.geo ∧ (s.passClocks k n).em = s.em ∧
      (s.passClocks k n).inReset = none ∧ (s.passClocks k n).pending = s.pending := by
  induction k generalizing n s with
  | zero =>
    cases n with
    | zero => exact ⟨rfl, rfl, rfl, rfl, h, rfl⟩
    | succ n => exact State.elapse_apart h _
  | succ k ih =>
    cases n with
    | zero => exact ⟨rfl, rfl, rfl, rfl, h, rfl⟩
    | succ n =>
      unfold State.passClocks
      cases hn : s.nextOwn with
      | some p =>
        obtain ⟨e, t⟩ := p
        have ht : Apart s t := by
          unfold State.nextOwn at hn
          split at hn
          · cases hn
          · cases hn; exact Apart.refl _
          · cases hn; exact ⟨rfl, rfl, rfl, rfl, rfl, rfl⟩
        have a := ht.trans (State.takeOwn_apart t e)
        obtain ⟨c, d, g, m, r, q⟩ := ih (n + 1) (t.takeOwn e) (a.inReset.trans h) (by rw [a.carrier]; exact hp)
        exact ⟨by rw [c, a.carrier], d.trans a.cat, g.trans a.geo, m.trans a.em, r, q.trans a.pending⟩
      | none =>
        have hle := s.stretch_le (n + 1)
        dsimp only
        generalize s.stretch (n + 1) = d at hle ⊢
        obtain ⟨c₁, d₁, g₁, m₁, r₁, q₁⟩ := State.elapse_apart h d
        by_cases he : d = n + 1
        · subst he
          have hz : n + 1 - (n + 1) = 0 := Nat.sub_self _
          rw [hz]
          obtain ⟨c, d, g, m, r, q⟩ := ih 0 (s.elapse (n + 1)) r₁ (by
            rw [c₁]
            rcases Nat.lt_or_eq_of_le hp with hl | hl
            · rw [Carrier.advance_within hl]; exact Nat.le_of_lt hl
            · rw [Carrier.advance_end hl]; exact Nat.zero_le _)
          exact ⟨by rw [c]; simpa using c₁, d.trans d₁, g.trans g₁, m.trans m₁, r, q.trans q₁⟩
        · have hl : s.carrier.phase + d < carrierPeriod s.carrier.select := by omega
          rw [Carrier.advance_within hl] at c₁
          obtain ⟨c, d', g, m, r, q⟩ := ih (n + 1 - d) (s.elapse d) r₁ (by rw [c₁]; dsimp only; omega)
          refine ⟨?_, d'.trans d₁, g.trans g₁, m.trans m₁, r, q.trans q₁⟩
          rw [c, c₁, if_neg (by omega), if_neg (by omega)]
          rcases Nat.lt_or_eq_of_le hp with hq | hq
          · rw [Carrier.advance_within hq, Carrier.advance_within (by dsimp only; omega)]
            simp only [Carrier.mk.injEq, true_and]; omega
          · rw [Carrier.advance_end hq, Carrier.advance_end (by dsimp only; omega)]

end Sys2Proof.Machine
end

