-- ==== Sys2Proof/Laws/Tickets.lean ====
section
/-! SUPPORT. What disarming, releasing, retiring and flushing do to the belt list, the lanes, the channels and the
drives, said once. -/

namespace Sys2Proof.Machine

open Sys2Proof.Safety

/-! ### Disarming and releasing -/

theorem State.disarm_lanes (s : State) (l : Lane) : (s.disarm l).lanes = s.lanes := by
  unfold State.disarm; split <;> rfl
theorem State.disarm_drives (s : State) (l : Lane) : (s.disarm l).drives = s.drives := by
  unfold State.disarm; split <;> rfl
theorem State.disarm_mc (s : State) (l : Lane) : (s.disarm l).mc = s.mc := by
  unfold State.disarm; split <;> rfl
theorem State.disarm_ind (s : State) (l : Lane) : (s.disarm l).ind = s.ind := by
  unfold State.disarm; split <;> rfl
theorem State.disarm_sli (s : State) (l : Lane) : (s.disarm l).sli = s.sli := by
  unfold State.disarm; split <;> rfl

@[simp] theorem State.lanes_disarmOf (s : State) (t : Ticket) : (s.disarmOf t).lanes = s.lanes := by
  unfold State.disarmOf; split
  · split
    · exact State.disarm_lanes _ _
    · rfl
  · rfl
@[simp] theorem State.drives_disarmOf (s : State) (t : Ticket) : (s.disarmOf t).drives = s.drives := by
  unfold State.disarmOf; split
  · split
    · exact State.disarm_drives _ _
    · rfl
  · rfl
@[simp] theorem State.mc_disarmOf (s : State) (t : Ticket) : (s.disarmOf t).mc = s.mc := by
  unfold State.disarmOf; split
  · split
    · exact State.disarm_mc _ _
    · rfl
  · rfl
@[simp] theorem State.ind_disarmOf (s : State) (t : Ticket) : (s.disarmOf t).ind = s.ind := by
  unfold State.disarmOf; split
  · split
    · exact State.disarm_ind _ _
    · rfl
  · rfl
@[simp] theorem State.sli_disarmOf (s : State) (t : Ticket) : (s.disarmOf t).sli = s.sli := by
  unfold State.disarmOf; split
  · split
    · exact State.disarm_sli _ _
    · rfl
  · rfl

/-- A ticket that no channel arms is not disarmed. -/
theorem State.disarmOf_of_unarmed (s : State) (t : Ticket) (h : ∀ l a, (s.channel l).armed = some a → a.slot ≠ t.slot) :
    s.disarmOf t = s := by
  unfold State.disarmOf; split
  · rename_i l _
    have : s.armsSlot l t.slot = false := by
      unfold State.armsSlot; split
      · rename_i a ha; simpa using h l a ha
      · rfl
    simp [this]
  · rfl

/-- A ticket without a lane destination is not disarmed. -/
theorem State.disarmOf_of_noLane (s : State) (t : Ticket) (h : t.laneDest = none) : s.disarmOf t = s := by
  simp [State.disarmOf, h]

/-- Disarming a ticket changes no other ticket's record. -/
theorem State.belt_disarmOf (s : State) (t : Ticket) : ∃ f : Ticket → Ticket, (∀ u, (f u).slot = u.slot) ∧
    (s.disarmOf t).tt.belt = s.tt.belt.map (fun u => if u.slot = t.slot then f u else u) := by
  have idm : ∃ f : Ticket → Ticket, (∀ u, (f u).slot = u.slot) ∧
      s.tt.belt = s.tt.belt.map (fun u => if u.slot = t.slot then f u else u) :=
    ⟨id, fun _ => rfl, by simp⟩
  unfold State.disarmOf; split
  · rename_i l _
    split
    · rename_i h
      unfold State.armsSlot at h
      unfold State.disarm
      split
      · exact idm
      · rename_i a ha
        rw [ha] at h
        have e : a.slot = t.slot := by simpa using h
        refine ⟨fun t => { t with fireCount := none, state := if t.state = .armed then .routed else t.state },
          fun _ => rfl, ?_⟩
        rw [← e]; rfl
    · exact idm
  · exact idm

@[simp] theorem State.releaseOf_tt (s : State) (t : Ticket) : (s.releaseOf t).tt = s.tt := by
  unfold State.releaseOf; split <;> rfl
@[simp] theorem State.releaseOf_channels (s : State) (t : Ticket) : (s.releaseOf t).channels = s.channels := by
  unfold State.releaseOf; split <;> rfl
@[simp] theorem State.releaseOf_drives (s : State) (t : Ticket) : (s.releaseOf t).drives = s.drives := by
  unfold State.releaseOf; split <;> rfl
@[simp] theorem State.releaseOf_mc (s : State) (t : Ticket) : (s.releaseOf t).mc = s.mc := by
  unfold State.releaseOf; split <;> rfl
@[simp] theorem State.releaseOf_ind (s : State) (t : Ticket) : (s.releaseOf t).ind = s.ind := by
  unfold State.releaseOf; split <;> rfl
@[simp] theorem State.releaseOf_sli (s : State) (t : Ticket) : (s.releaseOf t).sli = s.sli := by
  unfold State.releaseOf; split <;> rfl

/-- Releasing a commitment changes at most the committed count of one lane. -/
theorem State.lane_releaseOf (s : State) (t : Ticket) (l : Lane) : (s.releaseOf t).lane l =
    { s.lane l with committed := (s.lane l).committed - (if t.commitment = some l then 1 else 0) } := by
  unfold State.releaseOf
  split
  · rename_i m h
    by_cases e : m = l
    · subst e; simp [h, State.release]
    · have : l ≠ m := fun x => e x.symm
      simp [h, State.release, State.lane_modLane, e, this]
  · rename_i h; simp [h]

/-! ### Retirement and flushing -/

/-- A removed ticket leaves the belt list, and no other record changes. -/
@[simp] theorem State.belt_remove (s : State) (t : Ticket) (o : TicketOutcome) :
    (s.remove t o).tt.belt = s.tt.belt.filter (fun u => u.slot ≠ t.slot) := by
  obtain ⟨f, hf, hb⟩ := State.belt_disarmOf s t
  show (((s.disarmOf t).releaseOf t).tally t.outlet o).tt.belt.filter _ = _
  rw [State.belt_tally, State.releaseOf_tt, hb]
  induction s.tt.belt with
  | nil => rfl
  | cons u b ih =>
    by_cases e : u.slot = t.slot
    · simpa [e, hf] using ih
    · simpa [e] using ih

@[simp] theorem State.drives_remove (s : State) (t : Ticket) (o : TicketOutcome) : (s.remove t o).drives = s.drives :=
  (State.releaseOf_drives _ _).trans (State.drives_disarmOf _ _)
@[simp] theorem State.mc_remove (s : State) (t : Ticket) (o : TicketOutcome) : (s.remove t o).mc = s.mc :=
  (State.releaseOf_mc _ _).trans (State.mc_disarmOf _ _)
@[simp] theorem State.sli_remove (s : State) (t : Ticket) (o : TicketOutcome) : (s.remove t o).sli = s.sli :=
  (State.releaseOf_sli _ _).trans (State.sli_disarmOf _ _)

theorem State.lane_remove (s : State) (t : Ticket) (o : TicketOutcome) (l : Lane) : (s.remove t o).lane l =
    { s.lane l with committed := (s.lane l).committed - (if t.commitment = some l then 1 else 0) } := by
  have : (s.remove t o).lane l = ((s.disarmOf t).releaseOf t).lane l := rfl
  rw [this, State.lane_releaseOf]
  simp [State.lane]

/-- After a flush no ticket is live. -/
@[simp] theorem State.belt_flush (s : State) : s.flush.tt.belt = [] := by
  have key : ∀ (ts : List Ticket) (u : State), (∀ x ∈ u.tt.belt, ∃ t ∈ ts, t.slot = x.slot) →
      (ts.foldl (fun s t => s.remove t .flushed) u).tt.belt = [] := by
    intro ts
    induction ts with
    | nil =>
      intro u h
      match hb : u.tt.belt with
      | [] => rfl
      | x :: _ => obtain ⟨t, ht, -⟩ := h x (by simp [hb]); simp at ht
    | cons t ts ih =>
      intro u h
      refine ih _ ?_
      intro x hx
      rw [State.belt_remove, List.mem_filter] at hx
      obtain ⟨v, hv, e⟩ := h x hx.1
      rcases List.mem_cons.mp hv with rfl | hv
      · exact absurd e.symm (by simpa using hx.2)
      · exact ⟨v, hv, e⟩
  exact key _ _ (fun x hx => ⟨x, hx, rfl⟩)

/-- What a flush keeps, when every removal keeps it. -/
theorem State.flush_keeps {P : State → Prop} (s : State) (h : P s) (hr : ∀ s t, P s → P (s.remove t .flushed)) :
    P s.flush := by
  unfold State.flush
  have key : ∀ (ts : List Ticket) (u : State), P u → P (ts.foldl (fun s t => s.remove t .flushed) u) := by
    intro ts
    induction ts with
    | nil => intro u h; exact h
    | cons t ts ih => intro u h; exact ih _ (hr _ _ h)
  exact key _ _ h

@[simp] theorem State.drives_flush (s : State) : s.flush.drives = s.drives :=
  State.flush_keeps (P := fun u => u.drives = s.drives) s rfl (fun u t h => (State.drives_remove u t _).trans h)
@[simp] theorem State.mc_flush (s : State) : s.flush.mc = s.mc :=
  State.flush_keeps (P := fun u => u.mc = s.mc) s rfl (fun u t h => (State.mc_remove u t _).trans h)
@[simp] theorem State.sli_flush (s : State) : s.flush.sli = s.sli :=
  State.flush_keeps (P := fun u => u.sli = s.sli) s rfl (fun u t h => (State.sli_remove u t _).trans h)

/-- A flush changes a lane record in its committed count alone. -/
theorem State.lane_flush (s : State) (l : Lane) :
    s.flush.lane l = { s.lane l with committed := (s.flush.lane l).committed } := by
  refine State.flush_keeps (P := fun u => u.lane l = { s.lane l with committed := (u.lane l).committed }) s rfl ?_
  intro u t h
  rw [State.lane_remove, h]

/-! ### The end of a drain (R158) -/

/-- Outside DRAIN, or with a ticket live, nothing ends. -/
theorem State.drainCheck_of_goesOn {s : State} (h : s.mode = .drain → s.tt.belt ≠ []) : s.drainCheck = s := by
  unfold State.drainCheck
  split
  · rename_i k; exact absurd k.2 (h k.1)
  · rfl

/-- A ticket held by no other block, whose retirement completes no drain, is retired: it leaves the belt list, its
commitment is released and its outcome tallied. -/
theorem State.retire_unheld {s : State} {k : Slot} {t : Ticket} (o : TicketOutcome) (h : s.ticketAt? k = some t)
    (hu : Unheld s t) (hd : DrainGoesOn s t) : s.retire k o = { (s.releaseOf t) with tt := { s.tt with
      belt := s.tt.belt.filter (fun u => u.slot ≠ t.slot)
      tallies := tableMod s.tt.tallies (tallyIndex t.outlet o) (fun n => min (n + 1) 65535) } } := by
  have hr : s.remove t o = { (s.releaseOf t) with tt := { s.tt with
      belt := s.tt.belt.filter (fun u => u.slot ≠ t.slot)
      tallies := tableMod s.tt.tallies (tallyIndex t.outlet o) (fun n => min (n + 1) 65535) } } := by
    have h2 := hu.1
    unfold State.remove
    rw [State.disarmOf_of_unarmed s t hu.2]
    dsimp only
    rw [if_neg (by simpa [State.tally] using h2)]
    simp only [State.tally, State.releaseOf_tt, State.releaseOf_ind]
    rfl
  unfold State.retire
  rw [h]
  dsimp only
  rw [hr]
  refine State.drainCheck_of_goesOn ?_
  intro hm
  have : s.mode = .drain := by simpa [State.mode] using hm
  exact hd this

end Sys2Proof.Machine
end

