-- ==== Sys2Proof/Laws/Divert.lean ====
section
/-! SUPPORT. Drives, channels and route queues: the course of a drive, what attending to a route queue does, and what
every round of the longer operations keeps. -/

namespace Sys2Proof.Machine

open Sys2Proof.Safety

/-! ### Drives (R137, R141, R163) -/

theorem driven_iff {s : State} {l : Lane} : (s.drive l).driven = true ↔ Driven s l := by
  unfold Driven Drive.driven
  cases hd : (s.drive l).state <;> simp_all

theorem driven_eq_false {s : State} {l : Lane} (h : ¬ Driven s l) : (s.drive l).driven = false := by
  rw [← Bool.not_eq_true, driven_iff]; exact h

/-- The drives after one has entered RECOVER. -/
theorem drive_driveRecover (s : State) (l m : Lane) : (s.driveRecover l).drive m =
    if m = l then
      (if (s.lane l).recoveryTime = 0 then Drive.reset else recovering (s.lane l).recoveryTime (s.drive l).kind)
    else s.drive m := by
  simp only [State.driveRecover, State.drive_modDrive, recovering]

/-- A drive that has entered RECOVER is driven no more. -/
theorem not_driven_driveRecover (s : State) (l : Lane) : ¬ Driven (s.driveRecover l) l := by
  simp only [Driven, drive_driveRecover, if_true]
  split <;> simp [Drive.reset, recovering]

/-- With no drive driven the entry into SETUP changes the mode alone. -/
theorem enterSetup_still (s : State) (h : ∀ l, ¬ Driven s l) : s.enterSetup = s.setMode .setup := by
  unfold State.enterSetup
  apply State.forLanes_id
  intro l
  have := driven_eq_false (h l)
  simp [this]

/-- The entry into SETUP leaves no drive driven, when no test stroke runs. -/
theorem enterSetup_not_driven (s : State) (h : ∀ l, (s.drive l).inTest = false) (l : Lane) : ¬ Driven s.enterSetup l := by
  unfold State.enterSetup
  have key : ∀ (ls : List Lane) (u : State), (∀ l, (u.drive l).inTest = false) → (l ∈ ls ∨ ¬ Driven u l) →
      ¬ Driven (ls.foldl (fun s l =>
        if (s.drive l).driven && !(s.drive l).inTest then
          (s.modChannel l (fun c => { c with strokeEnd := none })).driveRecover l
        else s) u) l := by
    intro ls
    induction ls with
    | nil => intro u _ h; simpa using h
    | cons m ls ih =>
      intro u hu h
      rw [List.foldl_cons]
      apply ih
      · intro k; split
        · rw [drive_driveRecover]; split
          · split <;> simp [Drive.reset, recovering, Drive.inTest, Drive.driven]
          · exact hu k
        · exact hu k
      · by_cases e : m = l
        · subst e; right; split
          · exact not_driven_driveRecover _ _
          · rename_i hc; simp [hu m] at hc; rw [← driven_iff]; simpa using hc
        · rcases h with h | h
          · left; rcases List.mem_cons.mp h with h | h
            · exact absurd h.symm e
            · exact h
          · right; split
            · rw [← driven_iff, drive_driveRecover, if_neg (fun x => e x.symm)]; rw [← driven_iff] at h; exact h
            · exact h
  exact key allLanes _ h (.inl (mem_allLanes l))

/-! ### Tickets and their queues (R24, R114) -/

theorem laneDest_iff {t : Ticket} {l : Lane} : t.laneDest = some l ↔ t.dest = some (.lane l) := by
  unfold Ticket.laneDest
  cases t.dest with
  | none => simp
  | some d => cases d <;> simp

theorem queuedAt_iff {t : Ticket} {l : Lane} :
    t.queuedAt l = true ↔ t.laneDest = some l ∧ (t.state = .routed ∨ t.state = .armed) := by
  simp [Ticket.queuedAt]

theorem mem_routeQueue {s : State} {l : Lane} {t : Ticket} :
    t ∈ s.routeQueue l ↔ t ∈ s.tt.belt ∧ t.queuedAt l = true := by
  simp [State.routeQueue]

/-- Two changes that agree on a slot's ticket are the same change. -/
theorem modTicket_congr {s : State} {k : Slot} {f g : Ticket → Ticket} {t : Ticket} (hd : SlotsDistinct s)
    (ht : t ∈ s.tt.belt) (hk : t.slot = k) (h : f t = g t) : s.modTicket k f = s.modTicket k g := by
  simp only [State.modTicket]
  congr 2
  apply List.map_congr_left
  intro u hu
  split
  · rename_i e
    have : u = t := by
      have a := State.ticketAt?_of_mem hd hu
      rw [e, ← hk, State.ticketAt?_of_mem hd ht] at a
      exact (Option.some.inj a).symm
    rw [this, h]
  · rfl

/-- The armed ticket of a channel that holds the one ticket of its route queue. -/
theorem armedTicket?_of_alone {s : State} {l : Lane} {a : Armed} {t : Ticket} (h : ArmedAlone s l a t) :
    s.armedTicket? l = some t := by
  obtain ⟨hm, hq⟩ := mem_routeQueue.mp (show t ∈ s.routeQueue l by simp [h.queue])
  unfold State.armedTicket?
  rw [h.channel]
  simp only [h.slot, State.ticketAt?_of_mem h.slots hm]
  rw [if_pos]
  exact ⟨h.state, (queuedAt_iff.mp hq).1⟩

/-- A route queue whose one ticket changes so that it no longer waits is empty. -/
theorem routeQueue_modTicket_out {s : State} {l : Lane} {t : Ticket} (f : Ticket → Ticket) (hd : SlotsDistinct s)
    (h : s.routeQueue l = [t]) (hq : (f t).queuedAt l = false) : (s.modTicket t.slot f).routeQueue l = [] := by
  simp only [State.routeQueue, State.belt_modTicket, List.filter_eq_nil_iff, List.mem_map]
  rintro u ⟨v, hv, rfl⟩
  have hm := (mem_routeQueue.mp (show t ∈ s.routeQueue l by simp [h])).1
  split
  · rename_i e
    have : v = t := by
      have a := State.ticketAt?_of_mem hd hv
      rw [e, State.ticketAt?_of_mem hd hm] at a; exact (Option.some.inj a).symm
    rw [this, hq]; simp
  · rename_i e
    intro hx
    have : v ∈ s.routeQueue l := mem_routeQueue.mpr ⟨hv, hx⟩
    rw [h] at this; simp at this; exact e (by rw [this])

/-! ### Attending to a route queue (R24, R117) -/

theorem attendLane_empty (s : State) (l : Lane) (h : s.routeQueue l = []) : s.attendLane l = s := by
  unfold State.attendLane; rw [State.attend, h]

/-- A head that is armed is left as it is. -/
theorem attendLane_armed (s : State) (l : Lane) {t : Ticket} {rest : List Ticket} {a : Armed}
    (h : s.routeQueue l = t :: rest) (ha : (s.channel l).armed = some a) (e : a.slot = t.slot) : s.attendLane l = s := by
  unfold State.attendLane; rw [State.attend, h]; simp [ha, e]

/-- A head whose planned fire count is ahead is armed. -/
theorem attendLane_arms (s : State) (l : Lane) {t : Ticket} {rest : List Ticket} (h : s.routeQueue l = t :: rest)
    (ha : (s.channel l).armed = none)
    (hr : isReached s.bcu.count (t.nominal.getD 0 - BitVec.ofNat 16 (s.lead l)) = false) :
    s.attendLane l = s.arm l t := by
  have hr' : isReached s.now (t.nominal.getD 0 - toCount (s.lead l)) = false := hr
  unfold State.attendLane
  rw [State.attend, h]
  dsimp only
  rw [ha]
  dsimp only
  rw [hr', if_neg Bool.false_ne_true]

/-- What each round of attending keeps. -/
theorem attend_keeps {P : State → Prop} {l : Lane} (hd : ∀ s, P s → P (s.disarm l))
    (ha : ∀ s t, P s → t ∈ s.routeQueue l → (s.channel l).armed = none → P (s.arm l t))
    (hf : ∀ s, P s → P (s.fire l true)) (n : Nat) (s : State) (h : P s) : P (s.attend n l) := by
  induction n generalizing s with
  | zero => exact h
  | succ n ih =>
    rw [State.attend]
    split
    · exact h
    · rename_i t rest hq
      have ht : t ∈ s.routeQueue l := by simp [hq]
      split
      · split
        · exact h
        · exact ih _ (hd _ h)
      · rename_i hn
        split
        · exact ih _ (hf _ (ha _ _ h ht hn))
        · exact ha _ _ h ht hn

/-- What a fire can do: nothing, or, on the armed ticket marked LATE or not, a miss, a stroke begun, a stroke extended or
a deferral, by the mode and the drive state (R119). -/
theorem fire_cases (s : State) (l : Lane) (late : Bool) :
    s.fire l late = s ∨ ∃ t u, s.armedTicket? l = some t ∧
      u = (if late then s.modTicket t.slot (fun t => { t with marks := { t.marks with late := true } }) else s) ∧
      ((u.mode = .setup ∧ s.fire l late = u) ∨ ((∃ h, u.mode = .hold h) ∧ s.fire l late = u.missFire l t) ∨
        ((u.mode = .run ∨ u.mode = .drain) ∧
          (((u.drive l).state = .idle ∧ s.fire l late = u.beginStroke l t) ∨
            (((u.drive l).state = .pull ∨ (u.drive l).state = .hold) ∧ s.fire l late = u.extendStroke l t) ∨
            ((u.drive l).state = .recover ∧ s.fire l late = u.deferFire l t)))) := by
  unfold State.fire
  cases ha : s.armedTicket? l with
  | none => left; rfl
  | some t =>
    right
    refine ⟨t, _, rfl, rfl, ?_⟩
    dsimp only
    generalize (if late then s.modTicket t.slot (fun t => { t with marks := { t.marks with late := true } }) else s) = u
    cases hm : u.mode <;> cases hd : (u.drive l).state <;> simp

/-! ### End accounting (R144) -/

/-- A window whose upper bound is ahead is not reached. -/
theorem endReached_eq_false {s : State} {k : Slot} {t : Ticket} {w : Count × Count} (h : s.ticketAt? k = some t)
    (hb : t.endBounds = some w) (hr : isReached s.bcu.count w.2 = false) : s.endReached k = false := by
  unfold State.endReached; rw [h]; simp [hb, State.now, hr]

/-- A ticket sent to run-off with its end window ahead: its record and its reason's counter change, nothing else. -/
theorem sendToRunOff_ahead {s : State} {t : Ticket} (hd : SlotsDistinct s) (ht : t ∈ s.tt.belt) (r : Reason)
    (hr : isReached s.bcu.count (endBoundsOf s t).2 = false) :
    s.sendToRunOff t.slot r = (s.countRunOff r).modTicket t.slot (fun _ => ranOff s r t) := by
  have st := Steady.countRunOff s r
  have hd' : SlotsDistinct (s.countRunOff r) := st.distinct hd
  have ht' : t ∈ (s.countRunOff r).tt.belt := by
    unfold State.countRunOff; split <;> exact ht
  have e1 : ((s.modTicket t.slot (fun t => { t with
      state := .runningOff, dest := some .runOff, reason := some r, joined := false, nominal := none
      span := none })).countRunOff r).storeBounds t.slot =
      (s.countRunOff r).modTicket t.slot (fun _ => ranOff s r t) := by
    have : (s.modTicket t.slot (fun t => { t with
        state := .runningOff, dest := some .runOff, reason := some r, joined := false, nominal := none
        span := none })).countRunOff r = (s.countRunOff r).modTicket t.slot (fun t => { t with
        state := .runningOff, dest := some .runOff, reason := some r, joined := false, nominal := none
        span := none }) := by
      unfold State.countRunOff; split <;> rfl
    rw [this]
    unfold State.storeBounds
    rw [State.modTicket_modTicket]
    · apply modTicket_congr hd' ht' rfl
      simp [ranOff, State.endWindow, endBoundsOf, toCount, st.geo]
    · intro u; rfl
  have x : ((s.countRunOff r).modTicket t.slot (fun _ => ranOff s r t)).ticketAt? t.slot = some (ranOff s r t) := by
    have e2 : (s.countRunOff r).modTicket t.slot (fun _ => ranOff s r t) = (s.countRunOff r).modTicket t.slot (fun u =>
        { ranOff s r t with slot := u.slot }) := modTicket_congr hd' ht' rfl rfl
    rw [e2, State.ticketAt?_modTicket, State.ticketAt?_of_mem hd' ht']
    · simp [ranOff]
    · intro u; rfl
  have hc : ((s.countRunOff r).modTicket t.slot (fun _ => ranOff s r t)).bcu.count = s.bcu.count := by
    rw [State.bcu_modTicket, st.bcu]
  have he := endReached_eq_false x (w := endBoundsOf s t) rfl (by rw [hc]; exact hr)
  unfold State.sendToRunOff State.enterRunningOff
  dsimp only
  rw [e1, he]; rfl

/-! ### What the longer operations keep -/

/-- What each turn of a re-resolution pass keeps. -/
theorem passOver_keeps {P : State → Prop} {l : Lane} (h : ∀ s k ks, P s → P (s.reresolve l k ks)) (ks : List Slot)
    (s : State) (hs : P s) : P (s.passOver l ks) := by
  induction ks generalizing s with
  | nil => exact hs
  | cons k ks ih => exact ih _ (h _ _ _ hs)

/-- What each outstanding reach keeps. -/
theorem settleCounts_keeps {P : State → Prop} (hr : ∀ s e, P s → e ∈ s.countDue → P (s.takeReach e))
    (hc : ∀ s : State, P s → P { s with choices := s.choices + 1 }) (n : Nat) (s : State) (hs : P s) :
    P (s.settleCounts n) := by
  induction n generalizing s with
  | zero => exact hs
  | succ n ih =>
    rw [State.settleCounts]
    split
    · exact hs
    · rename_i e he
      exact ih _ (hr _ _ hs (by simp [he]))
    · rename_i e f rest he
      refine ih _ (hr _ _ (hc _ hs) ?_)
      change chosen s.choices e (f :: rest) ∈ s.countDue
      rw [he]
      unfold chosen
      rw [List.getD_eq_getElem?_getD]
      cases hx : (e :: f :: rest)[Config.orderChoice s.choices % ((f :: rest).length + 1)]? with
      | none => simp
      | some x => exact List.mem_of_getElem? hx

/-- With no reach outstanding there is nothing to settle. -/
theorem settleCounts_of_none {s : State} (h : s.countDue = []) (n : Nat) : s.settleCounts n = s := by
  cases n with
  | zero => rfl
  | succ n => rw [State.settleCounts, h]

theorem settle_of_none {s : State} (h : s.countDue = []) : s.settle = s := settleCounts_of_none h _

/-- A single reach whose taking leaves none outstanding is all there is to settle. -/
theorem settle_of_one {s : State} {e : CountReach} (h : s.countDue = [e]) (h' : (s.takeReach e).countDue = []) :
    s.settle = s.takeReach e := by
  rw [State.settle, show 3 * s.tt.belt.length + 32 = (3 * s.tt.belt.length + 31) + 1 from rfl, State.settleCounts, h]
  exact settleCounts_of_none h' _

/-- What every reach keeps, settling keeps. -/
theorem settle_keeps {P : State → Prop} (hr : ∀ s e, P s → e ∈ s.countDue → P (s.takeReach e))
    (hc : ∀ s : State, P s → P { s with choices := s.choices + 1 }) (s : State) (hs : P s) : P s.settle :=
  settleCounts_keeps hr hc _ s hs

end Sys2Proof.Machine
end

