-- ==== Sys2Proof/WellFormed.lean ====
section
/-! DEFINITION. What a row's own words ask of its operands. The machine gives every command a meaning whether or not
it is well formed: a character row acts as the character it carries (log 7), a block of a wrong length is refused
BAD_LENGTH. -/

namespace Sys2Proof

/-- The operands a row's own event can have. -/
def WellFormed : Instr → Bool
  | .unknownCommand code => (frameShape code).isNone
  | .commandCharacter code => (frameShape code).isSome && frameShape code != some (.fixed 0)
  | .badLength count => !blockCountOk count.toNat
  | .lineError c => !c.good
  | .writeLanes _ rs => blockCountOk rs.length
  | .writePatterns _ rs => blockCountOk rs.length
  | .writeForms _ rs => blockCountOk rs.length
  | .writeClasses _ rs => blockCountOk rs.length
  | .writeRoutes _ rs => blockCountOk rs.length
  | .readLanes _ n => blockCountOk n.toNat
  | .readPatterns _ n => blockCountOk n.toNat
  | .readForms _ n => blockCountOk n.toNat
  | .readClasses _ n => blockCountOk n.toNat
  | .readRoutes _ n => blockCountOk n.toNat
  | .powerOnReset => true
  | .pinReset => true
  | .releaseOfResetN _ => true
  | .encoderPulse => true
  | .p8Capture => true
  | .stopTimeExpiry => true
  | .inductionLeadingEdge => true
  | .inductionTrailingEdge => true
  | .overlength => true
  | .holdLimitReached => true
  | .triggerSend => true
  | .triggerSent => true
  | .readerCharacter _ => true
  | .readerGapTimeout => true
  | .readWindowExpiry _ => true
  | .fireDue _ => true
  | .strokeEndCountReached _ => true
  | .pullTimeElapsed _ => true
  | .onTimeCap _ => true
  | .recoveryTimeElapsed _ => true
  | .testEnd _ => true
  | .carrierPeriodStart => true
  | .laneEyeLeadingEdge _ => true
  | .laneEyeTrailingEdge _ => true
  | .confirmWindowClose _ => true
  | .endEyeLeadingEdge => true
  | .endEyeTrailingEdge => true
  | .endWindowExpiry _ => true
  | .guardOpening => true
  | .guardClosing => true
  | .addressCharacter _ => true
  | .frameGapTimeout => true
  | .replyStart => true
  | .replyEnd => true
  | .softResetEffect => true
  | .readStatus => true
  | .ackAttention _ => true
  | .setMask _ => true
  | .readReaderCounters => true
  | .setMode _ => true
  | .hold _ => true
  | .resume _ => true
  | .softReset => true
  | .writeGeometry _ => true
  | .writeCarrier _ => true
  | .testStroke _ _ => true
  | .openLane _ => true
  | .closeLane _ => true
  | .setCapacity _ _ => true
  | .rackExchanged _ => true
  | .writeCatalogueSettings _ => true
  | .readCatalogueSettings => true
  | .readTicket _ _ => true
  | .findTickets _ _ _ => true
  | .redirect _ _ _ => true
  | .pull _ _ => true
  | .readTallies => true
  | .clearTallies => true
  | .readEndMonitor => true
  | .parameterCharacter _ => true
  | .dataCharacterDuringWait _ => true
  | .activePortionEnd _ => true

end Sys2Proof
end

