-- ==== Sys2Proof/Tests/Slice0.lean ====
section
/-! SUPPORT. Own tests. First the smoke tests of WellFormed, one per check; then small tests of single commands, whose
expected values are the manual's worked examples and tables; then, for each statement with hypotheses, a theorem that
shows for each clause a state and operands that meet them. -/

namespace Sys2Proof.Tests

set_option Elab.async false

open Sys2Proof.Machine Sys2Proof.Safety

/-! ### Small states -/

/-- The part in a mode, with the guard closed. -/
def inMode (m : Mode) : State := { State.reset with mc := { mode := m, guard := .closed, cause := .power } }

/-- The part in RUN. -/
def inRun : State := inMode .run

/-- The part through a pin reset. -/
def heldInReset : State := { State.reset with inReset := some .pin }

/-- A ticket in a slot and a state, destined somewhere. -/
def piece (k : Slot) (st : TicketState) (d : Option Dest) : Ticket :=
  { newTicket k 1 0 1000 with
    state := st, dest := d, length := some 100, span := some 140, nominal := some 5000, cls := some 0 }

/-- A state with a belt list. -/
def withBelt (ts : List Ticket) (s : State) : State := { s with tt := { s.tt with belt := ts } }

/-- A state with a lane record. -/
def withLane (l : Lane) (r : LaneRecord) (s : State) : State := s.modLane l (fun _ => r)

/-- An OPEN lane at distance 4,800 with latency 35,000, capacity 120 and fill 57 (section 2.9). -/
def openLane : LaneRecord :=
  { LaneRecord.reset with state := .opened, distance := 4800, latency := 35000, capacity := 120, fill := 57 }

/-- A state at a belt count and a P8, with the belt moving. -/
def atCount (n : Count) (p8 : Nat) (s : State) : State :=
  { s with bcu := { s.bcu with count := n, p8 := p8, motion := .moving } }

/-- A state with a drive. -/
def withDrive (l : Lane) (d : Drive) (s : State) : State := s.modDrive l (fun _ => d)

/-- A state with a channel. -/
def withChannel (l : Lane) (c : Channel) (s : State) : State := s.modChannel l (fun _ => c)

/-- What a command leaves, or the state itself when it stops. -/
def after (i : Instr) (s : State) : State :=
  match exec i s with
  | .next t => t
  | .fault _ => s
  | .refused _ => s

/-- A data character and a marked character without error. -/
def dataChar (v : Byte) : LineChar := lineCharOf false v
def markedChar (v : Byte) : LineChar := lineCharOf true v

/-- The reply a command leaves due. -/
def replyTo (i : Instr) (s : State) : Option (Status × List Byte) := (after i s).sli.reply.map (fun r => (r.status, r.data))

/-! ### WellFormed refuses an ill-formed term of each check -/

theorem test_wf_unknownCommand : WellFormed (.unknownCommand 0x30) = false := by decide
theorem test_wf_commandCharacter_unknown : WellFormed (.commandCharacter 0x05) = false := by decide
theorem test_wf_commandCharacter_noParameters : WellFormed (.commandCharacter 0x01) = false := by decide
theorem test_wf_badLength : WellFormed (.badLength 64) = false := by decide
theorem test_wf_lineError : WellFormed (.lineError (lineCharOf true 0x05)) = false := by decide
theorem test_wf_writeLanes : WellFormed (.writeLanes 1 []) = false := by decide
theorem test_wf_writePatterns : WellFormed (.writePatterns 0 []) = false := by decide
theorem test_wf_writeForms : WellFormed (.writeForms 0 (List.replicate 65 0)) = false := by decide
theorem test_wf_writeClasses : WellFormed (.writeClasses 0 []) = false := by decide
theorem test_wf_writeRoutes : WellFormed (.writeRoutes 0 []) = false := by decide
theorem test_wf_readLanes : WellFormed (.readLanes 1 0) = false := by decide
theorem test_wf_readPatterns : WellFormed (.readPatterns 0 65) = false := by decide
theorem test_wf_readForms : WellFormed (.readForms 0 0) = false := by decide
theorem test_wf_readClasses : WellFormed (.readClasses 0 65) = false := by decide
theorem test_wf_readRoutes : WellFormed (.readRoutes 0 0) = false := by decide
theorem test_wf_accepts : WellFormed (.writePatterns 60 [⟨1, 3⟩]) = true ∧ WellFormed (.unknownCommand 0x05) = true ∧
    WellFormed (.commandCharacter 0x30) = true := by decide

/-! ### Counts and leads (Tables 1-2 and 7-2) -/

/-- Table 1-2: the reached test for 4,444. -/
theorem test_reached : [65530, 65535, 0, 4443, 4444, 4500].map (fun n => isReached (BitVec.ofNat 16 n) 4444) =
    [false, false, false, false, true, true] := by decide
theorem test_signedDiff : [65530, 0, 4443, 4500].map (fun n => signedDiff 4444 (BitVec.ofNat 16 n)) =
    [-4450, -4444, -1, 56] := by decide
/-- Table 7-2. -/
theorem test_lead : [(35000, 16000), (35000, 24000), (35000, 8000), (40000, 16000), (4095, 65535), (4096, 65535),
    (65535, 16000), (65535, 1), (0, 1)].map (fun (p : Nat × Nat) => leadFor p.1 p.2) =
    [18, 12, 35, 20, 0, 1, 33, 255, 0] := by decide

/-! ### Lines (sections 3.5, 11.6) -/

/-- The trigger of tag 14 is marked 4Eh (R48). -/
theorem test_triggerChar : (triggerChar 14).value = 0x4E ∧ (triggerChar 14).marked = true ∧
    (triggerChar 14).good = true := by decide
/-- At 19,231 baud a character takes 624 µs, two take 1,248, and the reply of 27 characters 16,848 (section 11.6). -/
theorem test_charTimes : ({ State.reset with sli := { State.reset.sli with baud := 1 } } : State).lineCharTime = 624 ∧
    ({ State.reset with sli := { State.reset.sli with baud := 1 } } : State).quietLimit = 1248 ∧
    ({ State.reset with sli := { State.reset.sli with baud := 1 } } : State).replyTime
      { status := .ok, data := List.replicate 25 0 } = 16848 := by decide
theorem test_parity : (LineChar.good ⟨0x141, true, true⟩, LineChar.good ⟨0x141, false, true⟩,
    LineChar.good ⟨0x141, true, false⟩) = (true, false, false) := by decide

/-! ### Belt counts and geometry -/

/-- The four installed lanes and lane 6 of section 1.5's example, with a lane 6 distance, an end distance and a read
window. -/
def geometryExample (lane6 endDistance readWindow : Nat) : State :=
  let lane (d : Nat) : LaneRecord := { LaneRecord.reset with distance := d }
  let s := State.reset |> withLane 0 (lane 1800) |> withLane 1 (lane 3200) |> withLane 2 (lane 4800)
    |> withLane 3 (lane 6400) |> withLane 5 (lane lane6)
  { s with
    geo := { s.geo with endDistance := endDistance, readWindow := readWindow }
    cat := { s.cat with residueLane := .lane 3 } }

/-- Table 1-6: the four attempts to enter RUN. -/
theorem test_geometryChecks : (geometryExample 3000 6600 200).failedCheck = some (1, 6) ∧
    (geometryExample 8000 6600 200).failedCheck = some (3, 6) ∧
    (geometryExample 8000 8241 400).failedCheck = some (2, 1) ∧
    (geometryExample 8000 8241 300).failedCheck = none := by decide
theorem test_setModeRun : replyTo (.setMode 1) (geometryExample 8000 8241 300) = some (.ok, [1, 0xFF]) ∧
    (after (.setMode 1) (geometryExample 8000 8241 300)).mode = .run := by decide +kernel

/-- The eighth count event of a block captures the block timer (R6, R7). -/
theorem test_encoderPulse_eighth :
    (after .encoderPulse { inRun with bcu :=
      { inRun.bcu with motion := .moving, blockCount := 7, blockTimer := 16000, count := 65535 } }).bcu =
    { inRun.bcu with motion := .moving, blockCount := 0, blockTimer := 0, count := 0, capture := some 16000 } := by
  decide +kernel
theorem test_p8Capture_zero :
    (after .p8Capture { inRun with bcu := { inRun.bcu with capture := some 0 } }).bcu.p8 = 1 := by decide
theorem test_stopTimeExpiry :
    ((after .stopTimeExpiry { (inRun |> atCount 100 16000) with
      bcu := { (inRun |> atCount 100 16000).bcu with stopTimer := 499000 } }).bcu.p8,
     (after .stopTimeExpiry (inRun |> atCount 100 16000)).flagSet .beltStopped) = (65535, true) := by decide

/-! ### Induction and the reader -/

/-- The life of section 2.9 up to a belt count: lane 5 and the catalogue as it gives them. -/
def life (n : Count) : State :=
  let s := inRun |> withLane 4 openLane |> atCount n 16000
  { s with
    geo := { s.geo with endDistance := 8000 }
    cat := { s.cat with
      patterns := s.cat.patterns.set 37 (.active 2)
      forms := s.cat.forms.set 12 (some 3)
      classes := s.cat.classes.set 3 ⟨-20, 40, 60, 30, 20⟩
      routes := s.cat.routes.set 19 (.lane 4) } }

/-- The ticket of section 2.9 under the eye, with its good read held. -/
def heldPiece : Ticket :=
  { newTicket 0 4 6 65200 with quality := some 11, ware := some (37, 12), readHeld := true }

/-- The state of section 2.9 at its trailing edge. -/
def lifeUnderEye : State :=
  let s := life 65340 |> withBelt [heldPiece]
  { s with ind := { s.ind with eye := .blocked, underEye := some 0, blockedLength := 140, nextTag := 7 } }

/-- Section 2.9: the trailing edge resolves the ticket to lane 5, arms it with nominal point 4,444, lead 18 and fire
count 4,426, and stroke span 180. -/
theorem test_trailingEdge_routes :
    (after .inductionTrailingEdge lifeUnderEye).tt.belt.map
      (fun t => (t.state, t.dest, t.nominal, t.fireCount, t.span)) =
    [(.armed, some (.lane 4), some 4444, some 4426, some 180)] := by decide
theorem test_trailingEdge_commits : ((after .inductionTrailingEdge lifeUnderEye).lane 4).committed = 1 := by decide

theorem test_leadingEdge :
    ((after .inductionLeadingEdge (life 65200)).tt.belt, (after .inductionLeadingEdge (life 65200)).rli.fifo) =
    ([newTicket 0 1 0 65200], [0]) := by decide
theorem test_report_held :
    (after (.readerCharacter (dataChar 0x0B)) { lifeUnderEye with
      tt := { lifeUnderEye.tt with belt := [newTicket 0 4 6 65200] }
      rli := { lifeUnderEye.rli with assembly := .waitStatus 6 37 12 } }).tt.belt = [heldPiece] := by decide
theorem test_readerError :
    (after (.readerCharacter ⟨0x121, true, false⟩) inRun).rli.errors = 1 ∧
    (after (.readerCharacter ⟨0x121, true, false⟩) inRun).flagSet .readerErr = true := by decide
theorem test_triggerSent : (after .triggerSent { inRun with
    rli := { inRun.rli with fifo := [3, 4], sendTimer := some 312 } }).rli.fifo = [4] := by decide

/-! ### Resolution (chapter 5) -/

/-- The lanes of Table 5-2. -/
def chain : State :=
  inRun |> atCount 20110 16000
    |> withLane 3 { openLane with state := .full, distance := 5000, capacity := 80, fill := 80, overflow := .lane 5 }
    |> withLane 5 { openLane with state := .closed, distance := 7000, capacity := 90, fill := 12, overflow := .lane 8 }
    |> withLane 8 { openLane with
        distance := 9000, latency := 40000, capacity := 60, fill := 30, committed := 5, overflow := .lane 2 }

/-- The walk of Table 5-3: lane 9 after two links, with the start reason. -/
theorem test_walk : ({ chain with cat := { chain.cat with classes := chain.cat.classes.set 1 ⟨10, 30, 60, 30, 20⟩ } } :
    State).walk (newTicket 0 1 0 20000) 1 (.lane 3) .routed = ⟨some 8, 2, .routed⟩ := by decide
/-- Table 5-4: a looped chain is left after seven examinations, with hops 6 and reason NO_LANE. -/
theorem test_walk_loop : (inRun |> withLane 6 { openLane with state := .closed, overflow := .lane 7 }
    |> withLane 7 { openLane with state := .faulted, overflow := .lane 6 }).walk (newTicket 0 1 0 1000) 0 (.lane 6) .unread =
    ⟨none, 6, .noLane⟩ := by decide

/-- The two tickets of section 5.5's example and its lanes 5 and 7. -/
def closing : State :=
  let s := inRun |> atCount 3000 16000
    |> withLane 4 { openLane with distance := 4800, committed := 2, overflow := .lane 6 }
    |> withLane 6 { openLane with distance := 6400, latency := 30000, capacity := 44, fill := 40, committed := 3 }
    |> withChannel 4 ⟨some ⟨40, 18, 5262, none⟩, none⟩
    |> withBelt
      [{ piece 40 .armed (some (.lane 4)) with
          induction := 500, length := some 150, cls := some 3, reason := some .routed, fireCount := some 5262 },
       { piece 44 .routed (some (.lane 4)) with
          induction := 800, length := some 120, cls := some 3, reason := some .unread, hops := 5 }]
  { s with
    cat := { s.cat with classes := s.cat.classes.set 3 ⟨-20, 40, 60, 30, 20⟩ }
    sli := { s.sli with address := 1 } }

/-- Table 5-5: closing lane 5 sends 40/1 on to lane 7 and 44/6 to run-off. -/
theorem test_closeLane_pass : (after (.closeLane 5) closing).tt.belt.map
      (fun t => (t.dest, t.reason, t.hops, t.span, t.fireCount)) =
    [(some (.lane 6), some .routed, 1, some 190, some 6865), (some .runOff, some .noLane, 6, none, none)] := by decide
theorem test_closeLane_committed : (((after (.closeLane 5) closing).lane 4).committed,
    ((after (.closeLane 5) closing).lane 6).committed,
    (after (.closeLane 5) closing).tt.runOffReasons.get 3) = (0, 4, 1) := by decide

/-! ### Catalogue (Tables 4-4, section 4.10) -/

/-- The catalogue of section 4.6. -/
def dishes : State :=
  { inRun with cat := { inRun.cat with
    patterns := (inRun.cat.patterns.set 37 (.active 2)).set 41 (.suspended 5)
    forms := (inRun.cat.forms.set 12 (some 3)).set 20 (some 1)
    routes := inRun.cat.routes.set 19 (.lane 4)
    residueLane := .lane 10, defaultClass := 6 } }

/-- Table 4-4: the answers for pieces a to e and g. -/
theorem test_catalogueAnswers :
    [(37, 12), (37, 20), (37, 70)].map (fun (p : Byte × Byte) => dishes.catalogueAnswer p.1 p.2) =
      [⟨some 2, 3, .lane 4, .routed⟩, ⟨some 2, 1, .runOff, .routed⟩, ⟨some 2, 6, .lane 10, .unknown⟩] ∧
    [(41, 12), (90, 12), (41, 13)].map (fun (p : Byte × Byte) => dishes.catalogueAnswer p.1 p.2) =
      [⟨some 5, 3, .lane 10, .suspended⟩, ⟨none, 6, .lane 10, .unknown⟩, ⟨some 5, 6, .lane 10, .suspended⟩] := by
  decide +kernel
/-- Section 4.10: the refused block and the clamped classes. -/
theorem test_writePatterns_refused :
    replyTo (.writePatterns 60 [⟨1, 3⟩, ⟨1, 9⟩, ⟨2, 3⟩, ⟨0, 200⟩]) dishes = some (.badParam, [61]) := by decide +kernel
theorem test_writePatterns_applied :
    replyTo (.writePatterns 60 [⟨1, 3⟩, ⟨1, 1⟩, ⟨2, 3⟩, ⟨0, 200⟩]) dishes = some (.ok, [60, 4]) ∧
    (after (.writePatterns 60 [⟨1, 3⟩, ⟨1, 1⟩, ⟨2, 3⟩, ⟨0, 200⟩]) dishes).cat.patterns.get 62 = .suspended 3 := by
  decide +kernel
theorem test_writeClasses_clamped :
    replyTo (.writeClasses 3 [⟨-20, 40, 0, 30, 20⟩, ⟨0, 10, 1500, 0, 255⟩]) dishes = some (.clamped, [3, 2]) ∧
    ((after (.writeClasses 3 [⟨-20, 40, 0, 30, 20⟩, ⟨0, 10, 1500, 0, 255⟩]) dishes).cat.classes.get 4).minStroke =
      1023 := by decide +kernel

/-! ### Diverts and drives -/

/-- The ticket of section 2.9 armed at lane 5, at a belt count. -/
def armedLife (n : Count) : State :=
  life n |> withChannel 4 ⟨some ⟨9, 18, 4426, none⟩, none⟩
    |> withBelt [{ heldPiece with
      slot := 9, state := .armed, tag := none, length := some 140, outlet := some 2, cls := some 3
      dest := some (.lane 4), reason := some .routed, nominal := some 4444, span := some 180, fireCount := some 4426 }]

/-- Section 2.9: the fire at 4,426 makes the ticket STROKING, with close count 4,626 and end count 4,606. -/
theorem test_fireDue :
    (after (.fireDue 4) (armedLife 4426)).tt.belt.map (fun t => (t.state, t.fireCount, t.closeCount)) =
      [(.stroking, some 4426, some 4626)] ∧
    (after (.fireDue 4) (armedLife 4426)).channel 4 = ⟨none, some 4606⟩ ∧
    ((after (.fireDue 4) (armedLife 4426)).drive 4).state = .pull := by decide +kernel
theorem test_fireDue_ahead : after (.fireDue 4) (armedLife 4425) = armedLife 4425 := by decide +kernel
/-- R7: the capture of a block that has closed is taken before the stop time passes. At 4,000 µs a count the lead of
R115 is 70, so the fire of section 2.9 moves to 4,374 and is taken late at 4,400 (R116). -/
theorem test_stopTimeExpiry_afterCapture :
    (after .stopTimeExpiry { armedLife 4400 with bcu := { (armedLife 4400).bcu with capture := some 4000 } }).tt.belt.map
      (fun t => (t.marks.late, t.fireCount)) = [(true, some 4400)] := by decide +kernel
/-- Section 11.6: READ TICKET of 9/4. -/
theorem test_readTicket : replyTo (.readTicket 9 4) (armedLife 4130) = some (.ok,
    [0x09, 0x04, 0x02, 0xFE, 0x07, 0x02, 0x00, 0xB0, 0xFE, 0x8C, 0x00, 0x25, 0x0C, 0x0B, 0x02, 0x03, 0x05, 0x00, 0x00,
     0x5C, 0x11, 0xB4, 0x00, 0x4A, 0x11]) := by decide +kernel
/-- The same exchange character by character. -/
theorem test_readTicket_characters :
    [.addressCharacter 0x01, .commandCharacter 0x30, .parameterCharacter 9, .parameterCharacter 4].foldl
      (fun s i => after i s) (armedLife 4130) = after (.readTicket 9 4) (armedLife 4130) := by decide +kernel

/-- A stroke of lane 5 in a drive state, its ticket STROKING. -/
def stroking (d : DriveState) : State :=
  life 4606 |> withChannel 4 ⟨none, some 4606⟩ |> withDrive 4 (begun { openLane with pullTime := 0 } .fire)
    |> (fun s => s.modDrive 4 (fun r => { r with state := d }))
    |> withBelt [{ piece 9 .stroking (some (.lane 4)) with closeCount := some 4626, outlet := some 2 }]

theorem test_strokeEnd : ((after (.strokeEndCountReached 4) (stroking .hold)).drive 4).state = .recover ∧
    (after (.strokeEndCountReached 4) (stroking .hold)).tt.belt.map Ticket.state = [.confirming] := by decide +kernel
theorem test_strokeEnd_pull : ((after (.strokeEndCountReached 4) (stroking .pull)).drive 4).endHeld = true := by
  decide +kernel
/-- A stroke of lane 5 at its cap of 500 ms. -/
def cappedStroke : State := (stroking .hold).modDrive 4 (fun d => { d with onTime := 500000 })
theorem test_onTimeCap : ((after (.onTimeCap 4) cappedStroke).drive 4).state = .recover ∧
    (after (.onTimeCap 4) cappedStroke).tt.belt.map (fun t => t.marks.capped) = [true] := by decide +kernel
/-- A reach that is outstanding is taken before time passes (R5): the stroke that has come to its end count is not
capped. -/
theorem test_onTimeCap_afterReach :
    (after (.onTimeCap 4) (stroking .hold)).tt.belt.map (fun t => t.marks.capped) = [false] := by decide +kernel
theorem test_guardOpening : (after .guardOpening (stroking .hold)).mode = .hold .run ∧
    (after .guardOpening (stroking .hold)).tt.belt.map (fun t => t.marks.aborted) = [true] ∧
    ((after .guardOpening (stroking .hold)).drive 4).state = .recover := by decide +kernel
theorem test_laneSighting : (after (.laneEyeLeadingEdge 4) (stroking .hold)).tt.belt = [] ∧
    ((after (.laneEyeLeadingEdge 4) (stroking .hold)).lane 4).fill = 58 ∧
    (after (.laneEyeLeadingEdge 4) (stroking .hold)).tt.tallies.get 14 = 1 := by decide +kernel

/-- A carrier of select 0 has a period of 800 clocks; duty 32 is active for 400 of them (R131, R134). -/
theorem test_activePortion : carrierPeriod 0 = 800 ∧ carrierPeriod 7 = 102400 ∧ activePortion 32 0 = 400 ∧
    activePortion 64 7 = 102400 := by decide
theorem test_activePortionEnd : (stroking .hold).outputActive 4 = true ∧
    (after (.activePortionEnd 4) (stroking .hold)).outputActive 4 = false := by decide +kernel

/-! ### The end of the belt, the supervisory line, resets -/

/-- A piece that runs off, its end window from 1,960 to 2,040, at a belt count. -/
def runningOff (n : Count) : State :=
  inRun |> atCount n 16000 |> withBelt [{ piece 3 .runningOff (some .runOff) with endBounds := some (1960, 2040) }]

theorem test_endSighting_edges : ((after .endEyeLeadingEdge (runningOff 1960)).tt.belt.length,
    (after .endEyeLeadingEdge (runningOff 2040)).tt.belt.length,
    (after .endEyeLeadingEdge (runningOff 1959)).tt.belt.length,
    (after .endEyeLeadingEdge (runningOff 1959)).em.strays) = (0, 0, 1, 1) := by decide +kernel
theorem test_endWindowExpiry : ((after (.endWindowExpiry 3) (runningOff 2040)).tt.tallies.get 58,
    (after (.endWindowExpiry 3) (runningOff 2039)).tt.belt.length) = (1, 1) := by decide +kernel
theorem test_unknownCommand : (after (.unknownCommand 0x05) { inRun with
    sli := { inRun.sli with frame := .selected } }).sli.reply = some { status := .unknownCommand, data := [] } := by
  decide +kernel
theorem test_badLength : (after (.badLength 65) { inRun with
    sli := { inRun.sli with frame := .collecting 0x28 [0] } }).sli.reply = some { status := .badLength, data := [] } := by
  decide +kernel
theorem test_ackAttention : replyTo (.ackAttention 0xFC01) { inRun with sli := { inRun.sli with flags := 0x203 } } =
    some (.ok, [0x02, 0x02]) := by decide +kernel
theorem test_redirect_stale : replyTo (.redirect 3 2 0) (runningOff 1500) = some (.stale, []) := by decide +kernel
theorem test_pull : replyTo (.pull 3 1) (runningOff 1500) = some (.ok, []) ∧
    (after (.pull 3 1) (runningOff 1500)).tt.tallies.get 61 = 1 := by decide +kernel
theorem test_resume_guardOpen : replyTo (.resume false) { inMode (.hold .run) with
    mc := { mode := .hold .run, guard := .opened, cause := .power } } = some (.state, [3, 1]) := by decide +kernel
/-- R129: a fire whose count HOLD has seen reached is missed though RESUME follows at once. -/
theorem test_resume_missesFire : (after (.resume false) { armedLife 4426 with
    mc := { mode := .hold .run, guard := .closed, cause := .power } }).tt.belt.map (fun t => t.reason) =
    [some .missed] := by decide +kernel
/-- R7, R129: the capture of the eighth count event belongs to that event, so a fire count it finds reached in HOLD is
missed though RESUME follows at once; at 4,000 µs the fire of section 2.9 moves to 4,374 (R115). -/
theorem test_resume_missesCapturedFire : (after (.resume false) { armedLife 4400 with
    mc := { mode := .hold .run, guard := .closed, cause := .power }
    bcu := { (armedLife 4400).bcu with capture := some 4000 } }).tt.belt.map (fun t => (t.reason, t.marks.late)) =
    [(some .missed, true)] := by decide +kernel
/-- R97: the second test names the first record that failed, here lane 10 with a link to 13. -/
theorem test_writeLanes_refused : replyTo (.writeLanes 9
    [⟨0, 0, 1, 12, 0, 64, 1, 0, 1⟩, ⟨0, 0, 1, 13, 0, 64, 1, 0, 1⟩, ⟨0, 0, 1, 0, 0, 64, 1, 0, 2⟩]) State.reset =
    some (.badParam, [10]) := by decide +kernel
/-- R158: the retirement of the last live ticket in DRAIN makes the mode SETUP. -/
theorem test_drainEnds : (after (.pull 3 1) { runningOff 1500 with
    mc := { mode := .drain, guard := .closed, cause := .power } }).mode = .setup := by decide +kernel
theorem test_pinReset : (after .encoderPulse (after .pinReset (runningOff 1500))).inReset = some .pin ∧
    (after .pinReset (runningOff 1500)).tt.belt = [] := by decide +kernel
theorem test_release : (after (.releaseOfResetN ⟨.blocked, .clear, .opened, 5, 3⟩) heldInReset).mc =
    { mode := .setup, guard := .opened, cause := .pin } := by decide +kernel
theorem test_softResetEffect : (after .softResetEffect { runningOff 1500 with
    sli := { inRun.sli with reply := some { status := .ok, data := [], softReset := true } } }).mc =
    { mode := .setup, guard := .closed, cause := .soft } := by decide +kernel

/-! ### Witnesses: states and operands that meet the hypotheses of the statements, clause by clause

Where a hypothesis is a predicate of Sys2Proof.Safety it is unfolded by the lemmas below. -/

theorem listening_of {s : State} (h : s.inReset = none ∧ s.sli.sending = none ∧ s.sli.address ≠ 0 ∧ s.sli.reply = none) :
    Listening s := ⟨h.1, h.2.1, h.2.2.1, h.2.2.2⟩

theorem listening_inMode (m : Mode) : Listening (inMode m) := by constructor <;> simp [inMode, State.reset]

theorem unheld_of {s : State} {t : Ticket} (h : s.ind.underEye ≠ some t.slot) (h' : ∀ l, (s.channel l).armed = none) :
    Unheld s t := ⟨h, fun l a e => by rw [h' l] at e; cases e⟩

theorem undriven_of {s : State} (h : ∀ l, (s.drive l).driven = false) : ∀ l, ¬ Driven s l := by
  intro l hd
  have := h l
  unfold Drive.driven at this
  rcases hd with e | e <;> simp [e] at this

/-- The idle step's four cases. -/
theorem witness_IdleStepTakesOwnEvents :
    (heldInReset.pending = [] ∧ heldInReset.inReset = some .pin) ∧
    (inRun.pending = [] ∧ Running inRun ∧ inRun.ownDue = []) ∧
    (Running { inRun with rli := { inRun.rli with fifo := [3] } } ∧
      ({ inRun with rli := { inRun.rli with fifo := [3] } } : State).ownDue = [.triggerSend]) ∧
    (Running { stroking .pull with rli := { inRun.rli with fifo := [3] } } ∧ 2 ≤ ({ stroking .pull with rli := { inRun.rli with fifo := [3] } } : State).ownDue.length) :=
  ⟨⟨rfl, rfl⟩, ⟨rfl, rfl, by decide +kernel⟩, ⟨rfl, by decide +kernel⟩, ⟨rfl, by decide +kernel⟩⟩

theorem witness_ResetsBegin : Running inRun ∧ heldInReset.inReset = some .pin := ⟨rfl, rfl⟩

theorem witness_NothingTakenInReset : heldInReset.inReset = some .pin ∧ Instr.encoderPulse ≠ .powerOnReset ∧
    ∀ pins, Instr.encoderPulse ≠ .releaseOfResetN pins := ⟨rfl, by decide, fun _ h => by cases h⟩

theorem witness_ReleaseSamplesPins : heldInReset.inReset = some .pin := rfl

/-- The reply to SOFT RESET just sent: two characters of 1,248 µs. -/
def resetSent : State :=
  { runningOff 1500 with
    sli := { inRun.sli with sending := some { status := .ok, data := [], softReset := true }, sendTimer := 2496 } }

theorem witness_SoftResetTakesEffect : Running resetSent ∧ resetSent.sli.reply = none ∧
    resetSent.sli.sending = some { status := .ok, data := [], softReset := true } ∧
    resetSent.replyTime { status := .ok, data := [], softReset := true } ≤ resetSent.sli.sendTimer ∧
    CommitmentsKept resetSent :=
  ⟨rfl, rfl, rfl, by decide +kernel, ⟨by unfold SlotsDistinct; decide +kernel, by unfold commitmentsAt; decide +kernel⟩⟩

/-- A prescale exponent of 7, with the remainder at its two boundary values. -/
def prescaled (r : Nat) : State :=
  { inRun with geo := { inRun.geo with prescaleExponent := 7 }, bcu := { inRun.bcu with remainder := r } }

theorem witness_EncoderPulseCounts : Running (prescaled 126) ∧ (prescaled 126).countDue = [] ∧
    (prescaled 126).bcu.remainder + 1 < 2 ^ (prescaled 126).geo.prescaleExponent ∧ (prescaled 127).countDue = [] ∧
    2 ^ (prescaled 127).geo.prescaleExponent ≤ (prescaled 127).bcu.remainder + 1 :=
  ⟨rfl, by decide +kernel, by decide, by decide +kernel, by decide⟩

/-- A capture of 0 µs, and one of 32,000 µs with a ticket armed. -/
def captured (v : Nat) (s : State) : State := { s with bcu := { s.bcu with capture := some v } }

theorem witness_P8CaptureRecomputesLead :
    (Running (captured 0 inRun) ∧ (captured 0 inRun).bcu.capture = some 0 ∧
      ∀ l, ((captured 0 inRun).channel l).armed = none) ∧
    (Running (captured 32000 (armedLife 4000)) ∧
      ((captured 32000 (armedLife 4000)).channel 4).armed = some ⟨9, 18, 4426, none⟩ ∧
      ((captured 32000 (armedLife 4000)).ticketAt? 9).isSome = true ∧
      (∀ m, m ≠ 4 → ((captured 32000 (armedLife 4000)).channel m).armed = none) ∧
      isReached (captured 32000 (armedLife 4000)).bcu.count (4444 - BitVec.ofNat 16 9) = false ∧
      min ((16 * ((captured 32000 (armedLife 4000)).lane 4).latency + max 1 32000) / (2 * max 1 32000)) 255 = 9) :=
  ⟨⟨rfl, rfl, by decide +kernel⟩, ⟨rfl, by decide +kernel, by decide +kernel, by decide +kernel, by decide +kernel,
    by decide +kernel⟩⟩

/-- The belt at its stop time of 500 ms. -/
def stopping : State := { inRun with bcu := { inRun.bcu with motion := .moving, p8 := 16000, stopTimer := 500000 } }

theorem witness_StopTimeStopsTheBelt : Running inRun ∧ inRun.bcu.motion = .stopped ∧ Running stopping ∧
    stopping.bcu.motion = .moving ∧ stopping.geo.stopTime * 10000 ≤ stopping.bcu.stopTimer ∧
    ∀ l, (stopping.channel l).armed = none := ⟨rfl, rfl, rfl, rfl, by decide +kernel, by decide +kernel⟩

/-- A full Ticket Table, and one with its last slot free. -/
def crowdedTable (n : Nat) : State :=
  inRun |> withBelt (((List.finRange 128).take n).map (fun k => piece k .confirming (some .runOff)))

/-- A pending ticket past its trailing edge that holds tag 0, with tag 0 next. -/
def tagHolder : Ticket := { newTicket 0 1 0 1000 with length := some 50, windowEnd := some 1250 }
def tagReused : State := inRun |> atCount 1100 16000 |> withBelt [tagHolder]

theorem witness_LeadingEdgeOpensTicket_reuse : Running tagReused ∧ tagReused.mode = .run ∧ tagReused.ind.eye = .clear ∧
    tagReused.tt.belt = [tagHolder] ∧ tagHolder.state = .pendingRead ∧ tagHolder.tag = some tagReused.ind.nextTag ∧
    tagHolder.overlength = false ∧ tagReused.cat.residueLane = .runOff ∧
    isReached tagReused.bcu.count (endBoundsOf tagReused tagHolder).2 = false ∧ tagReused.ind.noReadStreak < 15 ∧
    (1 : Slot) = (if tagHolder.slot = 0 then 1 else 0) :=
  ⟨rfl, rfl, rfl, rfl, rfl, rfl, rfl, rfl, by decide +kernel, by decide, rfl⟩

theorem witness_LeadingEdgeOpensTicket :
    (Attending inRun ∧ inRun.ind.eye = .clear ∧ inRun.tt.belt = [] ∧ ∀ j : Slot, ¬ j < 0) ∧
    (Attending (crowdedTable 127) ∧ (∀ t ∈ (crowdedTable 127).tt.belt, t.slot ≠ 127) ∧
      (∀ j : Slot, j < 127 → ∃ t ∈ (crowdedTable 127).tt.belt, t.slot = j) ∧
      ∀ t ∈ (crowdedTable 127).tt.belt, t.state = .pendingRead → t.tag ≠ some (crowdedTable 127).ind.nextTag) ∧
    (Attending (crowdedTable 128) ∧ (crowdedTable 128).ind.eye = .clear ∧
      ∀ k : Slot, ∃ t ∈ (crowdedTable 128).tt.belt, t.slot = k) ∧
    (Running State.reset ∧ State.reset.mode = .setup) :=
  ⟨⟨⟨rfl, by decide⟩, rfl, rfl, by decide⟩,
    ⟨⟨rfl, by decide⟩, by decide +kernel, by decide +kernel, by decide +kernel⟩,
    ⟨⟨rfl, by decide⟩, rfl, by decide +kernel⟩, rfl, rfl⟩

/-- A ticket under a blocked eye, with its read held or not. -/
def underEye (held : Bool) : State :=
  let s := life 65340 |> withBelt [{ newTicket 0 4 6 65200 with readHeld := held }]
  { s with ind := { s.ind with eye := .blocked, underEye := some 0, blockedLength := 1022, nextTag := 7 } }

theorem witness_TrailingEdgeEndsTicket :
    (Attending { underEye false with ind := { (underEye false).ind with underEye := none } }) ∧
    (Attending (underEye false) ∧ (underEye false).ind.eye = .blocked ∧ (underEye false).ind.underEye = some 0 ∧
      (underEye false).ticketAt? 0 = some { newTicket 0 4 6 65200 with readHeld := false } ∧
      (underEye false).ind.blockedLength < 1023 ∧ 0 < (underEye false).geo.readWindow ∧
      (underEye false).geo.readWindow ≤ 1023) ∧
    (Attending (underEye true) ∧ (underEye true).ind.eye = .blocked ∧
      (underEye true).ticketAt? 0 = some { newTicket 0 4 6 65200 with readHeld := true }) :=
  ⟨⟨rfl, by decide⟩, ⟨⟨rfl, by decide⟩, rfl, rfl, by decide +kernel, by decide, by decide, by decide⟩,
    ⟨⟨rfl, by decide⟩, rfl, by decide +kernel⟩⟩

/-- The 1023rd count event under the eye, and one after the mark. -/
theorem witness_EncoderPulseCounts_grow : Running (underEye false) ∧ (underEye false).countDue = [] ∧
    2 ^ (underEye false).geo.prescaleExponent ≤ (underEye false).bcu.remainder + 1 ∧
    GrowsOverlength (underEye false) 0 { newTicket 0 4 6 65200 with readHeld := false } ∧
    ∀ k t, ¬ GrowsOverlength (inMode .run) k t :=
  ⟨rfl, by decide +kernel, by decide +kernel, ⟨rfl, rfl, by decide +kernel, rfl, by decide⟩, fun _ _ h => by cases h.1⟩

/-- The flag is set at the 1023rd count event itself (R46), before any OVERLENGTH row, and a PULL that follows keeps it. -/
theorem test_overlength_at_count :
    (underEye false).flagSet .overlength = false ∧
    (after (.pull 0 4) (after .encoderPulse (underEye false))).tt.belt = [] ∧
    (after (.pull 0 4) (after .encoderPulse (underEye false))).flagSet .overlength = true := by decide +kernel

/-- A ticket whose blocked length is 1023, and one at its hold limit. -/
def longPiece (marked : Bool) : State :=
  let s := inRun |> atCount 31000 16000 |> withBelt [{ newTicket 0 4 6 1000 with overlength := marked }]
  { s with ind := { s.ind with eye := .blocked, underEye := some 0, blockedLength := 1023 } }

theorem witness_OverlengthAndHoldLimit :
    (Running (longPiece false) ∧ (longPiece false).ind.underEye = some 0 ∧
      (longPiece false).ticketAt? 0 = some { newTicket 0 4 6 1000 with overlength := false } ∧
      1023 ≤ (longPiece false).ind.blockedLength) ∧
    ((underEye false).ind.underEye = some 0 ∧ (underEye false).ind.blockedLength < 1023 ∧
      (underEye false).ticketAt? 0 = some { newTicket 0 4 6 65200 with readHeld := false }) ∧
    (Running (longPiece true) ∧ (longPiece true).ticketAt? 0 = some { newTicket 0 4 6 1000 with overlength := true } ∧
      isReached (longPiece true).bcu.count (1000 + 30000) = true ∧ 0 < (longPiece true).geo.readWindow ∧
      (longPiece true).geo.readWindow ≤ 1023) :=
  ⟨⟨rfl, rfl, by decide +kernel, by decide⟩, ⟨rfl, by decide, by decide +kernel⟩,
    ⟨rfl, by decide +kernel, by decide +kernel, by decide, by decide⟩⟩

/-- A pending ticket whose read window ends at 1,200, at that count. -/
def windowed : Ticket := { newTicket 3 1 2 1000 with length := some 100, windowEnd := some 1200 }
def windowClosing : State := inRun |> atCount 1200 16000 |> withBelt [windowed]

theorem witness_ReadWindowExpiryResolvesUnread :
    Running windowClosing ∧ windowClosing.ticketAt? 3 = some windowed ∧ windowed.state = .pendingRead ∧
    windowed.windowEnd = some 1200 ∧ isReached windowClosing.bcu.count 1200 = true ∧ windowClosing.tt.belt = [windowed] ∧
    windowed.overlength = false ∧ windowClosing.mode = .run ∧ windowClosing.cat.residueLane = .runOff ∧
    isReached windowClosing.bcu.count (endBoundsOf windowClosing windowed).2 = false ∧
    windowClosing.ind.noReadStreak < 15 :=
  ⟨rfl, by decide +kernel, rfl, rfl, by decide +kernel, rfl, rfl, rfl, rfl, by decide +kernel, by decide⟩

/-- A ticket armed at lane 5 whose trailing edge lies 20 counts before the induction count of `windowed`, and the two of
them on the belt with a residue lane. -/
def closeAhead : Ticket := { piece 2 .armed (some (.lane 4)) with induction := 880, fireCount := some 4982 }
def closePair (residue : Dest) : State :=
  let s := inRun |> atCount 1200 16000 |> withLane 4 { openLane with committed := 1 } |> withLane 5 openLane
    |> withChannel 4 ⟨some ⟨2, 18, 4982, none⟩, none⟩ |> withBelt [closeAhead, windowed]
  { s with cat := { s.cat with residueLane := residue } }

theorem armedAlone_closePair (d : Dest) : ArmedAlone (closePair d) 4 ⟨2, 18, 4982, none⟩ closeAhead :=
  ⟨by unfold SlotsDistinct; change [(2 : Slot), 3].Nodup; decide, by rfl, rfl, by rfl, rfl, rfl⟩

theorem witness_ReadWindowExpiryResolvesUnread_crowded :
    (∀ d, Running (closePair d) ∧ (closePair d).ticketAt? 3 = some windowed ∧
      (closePair d).tt.belt = [closeAhead, windowed] ∧ (closePair d).mode = .run ∧
      isReached (closePair d).bcu.count 1200 = true ∧ (closePair d).ind.noReadStreak < 15) ∧
    (∀ d, TooClose (closePair d) closeAhead windowed) ∧
    closeAhead.slot ≠ windowed.slot ∧ closeAhead.dest = some (.lane 4) ∧
    (closePair (.lane 4)).eligible windowed (closePair (.lane 4)).cat.defaultClass 4 = true ∧
    (closePair (.lane 5)).eligible windowed (closePair (.lane 5)).cat.defaultClass 5 = true ∧
    ((closePair (.lane 5)).channel 5).armed = none ∧
    isReached (closePair .runOff).bcu.count (endBoundsOf (closePair .runOff) windowed).2 = false ∧
    isReached (closePair .runOff).bcu.count (endBoundsOf (closePair .runOff) closeAhead).2 = false :=
  ⟨fun _ => ⟨rfl, rfl, rfl, rfl, by change isReached 1200 1200 = true; decide,
    by change 0 < 15; decide⟩, fun _ => ⟨0, rfl, by
    change max 0 (signedDiff (880 + BitVec.ofNat 16 100) 1000) < ((30 : Nat) : Int); decide⟩, by decide, rfl,
    by decide +kernel, by decide +kernel, by decide +kernel, by decide +kernel, by decide +kernel⟩

/-- The reader line with these tags waiting, this transmitter, this assembly and this gap. -/
def onReaderLine (fifo : List Tag) (send : Option Nat) (a : Assembly) (gap : Nat) : State :=
  { inRun with rli := { inRun.rli with fifo := fifo, sendTimer := send, assembly := a, gapTimer := gap } }

theorem witness_TriggersAndReaderGap :
    (Running (onReaderLine [3] none .waitHeader 0) ∧ (onReaderLine [3] none .waitHeader 0).rli.sendTimer = none ∧
      (onReaderLine [3] none .waitHeader 0).rli.fifo ≠ []) ∧
    ((onReaderLine [3] (some 312) .waitHeader 0).rli.sendTimer = some 312 ∧ 312 ≤ 312) ∧
    ((onReaderLine [] none (.waitForm 1 2) 2000).rli.assembly ≠ .waitHeader ∧
      2000 ≤ (onReaderLine [] none (.waitForm 1 2) 2000).rli.gapTimer) :=
  ⟨⟨rfl, rfl, by decide⟩, ⟨rfl, by decide⟩, by decide, by decide⟩

theorem witness_ReaderCharactersAssemble : Running inRun ∧
    (LineChar.good ⟨0x121, true, false⟩ = false) ∧
    ((markedChar 0x20).good = true ∧ (markedChar 0x2F).marked = true ∧ inRun.rli.assembly = .waitHeader) ∧
    ((dataChar 0x25).good = true ∧ (dataChar 0x25).marked = false) := ⟨rfl, by decide⟩

/-- A report whose status character is awaited, for a pending ticket of tag 2. -/
def awaited (under : Option Slot) (held : Bool) : State :=
  let s := inRun |> atCount 1100 16000 |> withBelt [{ newTicket 3 1 2 1000 with readHeld := held, length := some 50 }]
  { s with
    rli := { s.rli with assembly := .waitStatus 2 37 12 }
    ind := { s.ind with underEye := under } }

theorem witness_ReportsMatchedAndJudged :
    (Running (awaited none true) ∧ (dataChar 0x0B).good = true ∧ (dataChar 0x0B).marked = false ∧
      ∀ t ∈ (awaited none true).tt.belt, t.state = .pendingRead → t.tag = some 2 → t.readHeld = true) ∧
    (((awaited (some 3) false).pendingWithTag? 2).map (fun t => (t.slot, t.readHeld)) = some (3, false) ∧
      (dataChar 0x04).value.toNat < 16 ∧ (awaited (some 3) false).cat.threshold ≤ (dataChar 0x04).value.toNat ∧
      (awaited (some 3) false).ind.underEye = some 3) ∧
    ((dataChar 0x03).value.toNat < (awaited none false).cat.threshold ∧ 16 ≤ (dataChar 0x1F).value.toNat) ∧
    (SlotsDistinct (awaited none false) ∧ (awaited none false).ind.underEye ≠ some 3 ∧
      ((awaited none false).pendingWithTag? 2).map (fun t => (t.slot, t.readHeld)) = some (3, false)) := by
  unfold SlotsDistinct; refine ⟨⟨rfl, ?_⟩, ?_⟩ <;> decide +kernel

/-- The walk of a ticket at lane 5, which is eligible, and at lane 6, which is not installed. -/
theorem witness_WalkEndsAtEligibleLane :
    ((life 65340).walk (newTicket 0 4 6 65200) 3 (.lane 4) .routed).lane = some 4 ∧
    ((life 65340).walk (newTicket 0 4 6 65200) 3 (.lane 5) .routed).lane = none ∧
    (life 65340).eligible (newTicket 0 4 6 65200) 3 4 = true := by decide +kernel

/-- The ticket of section 2.9 past its trailing edge, its report at the status character. -/
def passedEye : Ticket := { newTicket 9 4 6 65200 with length := some 140, windowEnd := some 4 }
def reporting : State :=
  let s := life 65340 |> withBelt [passedEye]
  { s with rli := { s.rli with assembly := .waitStatus 6 37 12 } }

theorem witness_ReportRoutesTicketToItsLane :
    Running reporting ∧ reporting.mode = .run ∧ (dataChar 0x0B).good = true ∧ (dataChar 0x0B).marked = false ∧
    (dataChar 0x0B).value.toNat < 16 ∧ reporting.cat.threshold ≤ (dataChar 0x0B).value.toNat ∧
    reporting.rli.assembly = .waitStatus 6 37 12 ∧ reporting.tt.belt = [passedEye] ∧ passedEye.state = .pendingRead ∧
    passedEye.tag = some 6 ∧ passedEye.readHeld = false ∧ passedEye.overlength = false ∧
    reporting.ind.underEye ≠ some passedEye.slot ∧ reporting.cat.patterns.get (37 : Byte).toFin = .active 2 ∧
    reporting.cat.forms.get ⟨(12 : Byte).toNat, by decide⟩ = some 3 ∧
    reporting.cat.routes.get (routeIndex 2 3) = .lane 4 ∧ reporting.eligible passedEye 3 4 = true ∧
    (reporting.channel 4).armed = none ∧
    isReached reporting.bcu.count (reporting.nominalAt passedEye 3 4 - BitVec.ofNat 16 (reporting.lead 4)) = false := by
  refine ⟨rfl, rfl, ?_, ?_, ?_, ?_, rfl, rfl, rfl, rfl, rfl, rfl, ?_, ?_, ?_, ?_, ?_, ?_, ?_⟩ <;> decide +kernel

/-- `reporting` with a mode, a pattern entry for the report, an overlength mark, a residue lane and the route cell. -/
def startingAt (m : Mode) (e : PatternEntry) (long : Bool) (d : Dest) : State :=
  let s := reporting |> withBelt [{ passedEye with overlength := long }]
  { s with
    mc := { mode := m, guard := .closed, cause := .power }
    geo := { s.geo with endDistance := 8000 }
    cat := { s.cat with patterns := s.cat.patterns.set 37 e, routes := s.cat.routes.set 19 d, residueLane := d } }

/-- Each case of Table 5-1 for a good read; a start at 0, at the eligible lane 5, and at lane 6, which is not installed
and whose link is 0. -/
theorem witness_ReportRoutesTicketToItsLane_starts :
    (∀ m e long d, (startingAt m e long d).rli.assembly = .waitStatus 6 37 12 ∧
      (startingAt m e long d).tt.belt = [{ passedEye with overlength := long }]) ∧
    (Attending (startingAt .drain .unused true .runOff) ∧ Attending (startingAt .run .unused false .runOff)) ∧
    StartsAt (startingAt .drain (.suspended 5) true .runOff) { passedEye with overlength := true } 37 12
      (some 5) 0 .runOff .overlength ∧
    StartsAt (startingAt .run .unused true .runOff) { passedEye with overlength := true } 37 12
      none 0 .runOff .overlength ∧
    StartsAt (startingAt .drain (.active 2) false .runOff) passedEye 37 12 none 0 .runOff .draining ∧
    StartsAt (startingAt .run .unused false (.lane 4)) passedEye 37 12 none 0 (.lane 4) .unknown ∧
    StartsAt (startingAt .run (.suspended 5) false (.lane 5)) passedEye 37 12 (some 5) 3 (.lane 5) .suspended ∧
    StartsAt (startingAt .run (.active 2) false .runOff) passedEye 37 64 (some 2) 0 .runOff .unknown ∧
    StartsAt (startingAt .run (.active 2) false (.lane 4)) passedEye 37 12 (some 2) 3 (.lane 4) .routed ∧
    isReached (startingAt .drain .unused true .runOff).bcu.count
      (endBoundsOf (startingAt .drain .unused true .runOff) passedEye).2 = false ∧
    ((startingAt .run .unused false (.lane 4)).eligible passedEye 0 4 = true ∧
      ((startingAt .run .unused false (.lane 4)).channel 4).armed = none) ∧
    ((startingAt .run (.suspended 5) false (.lane 5)).eligible passedEye 3 5 = false ∧
      ((startingAt .run (.suspended 5) false (.lane 5)).lane 5).overflow = .runOff) :=
  ⟨fun _ _ _ _ => ⟨rfl, rfl⟩, ⟨⟨rfl, by decide⟩, rfl, by decide⟩, .overlengthOwned 5 rfl (.inr (by decide +kernel)),
    .overlengthUnowned rfl (by decide +kernel), .draining rfl rfl, .unused rfl (by decide) (by decide +kernel),
    .suspended 5 rfl (by decide) (by decide +kernel),
    .unknownForm 2 rfl (by decide) (by decide +kernel) (by decide +kernel),
    .routed 2 3 rfl (by decide) (by decide +kernel) (by decide +kernel), by decide +kernel, by decide +kernel,
    by decide +kernel⟩

/-- The armed ticket of section 2.9 at 4,426 in a mode, with the drive of lane 5 in a state and the channel's stroke end
and late limit. -/
def firing (m : Mode) (d : DriveState) (open' late : Option Count) : State :=
  let s := armedLife 4426 |> withChannel 4 ⟨some ⟨9, 18, 4426, late⟩, open'⟩
  { (s.modDrive 4 (fun r => { r with state := d })) with mc := { mode := m, guard := .closed, cause := .power } }

/-- The ticket of `firing`. -/
def fired : Ticket :=
  { heldPiece with
    slot := 9, state := .armed, tag := none, length := some 140, outlet := some 2, cls := some 3
    dest := some (.lane 4), reason := some .routed, nominal := some 4444, span := some 180, fireCount := some 4426 }

theorem armedAlone_firing (m : Mode) (d : DriveState) (o : Option Count) :
    ArmedAlone (firing m d o none) 4 ⟨9, 18, 4426, none⟩ fired :=
  ⟨List.nodup_singleton _, by rfl, rfl, by rfl, rfl, rfl⟩

theorem witness_FireBeginsStroke : Running (firing .run .idle none none) ∧
    ArmedAlone (firing .run .idle none none) 4 ⟨9, 18, 4426, none⟩ fired ∧
    isReached (firing .run .idle none none).bcu.count 4426 = true ∧
    ((firing .run .idle none none).drive 4).state = .idle :=
  ⟨rfl, armedAlone_firing _ _ _, by decide +kernel, by decide +kernel⟩

/-- `firing` with a second ticket of lane 5 behind, at a nominal point. -/
def second (nominal : Count) : Ticket :=
  { fired with slot := 10, state := .routed, induction := 65400, nominal := some nominal, fireCount := none }
def firingTwo (m : Mode) (nominal : Count) : State := firing m .idle none none |> withBelt [fired, second nominal]

theorem armedBefore_firingTwo (m : Mode) (n : Count) :
    ArmedBefore (firingTwo m n) 4 ⟨9, 18, 4426, none⟩ fired (second n) :=
  ⟨by unfold SlotsDistinct; change [(9 : Slot), 10].Nodup; decide, by rfl, rfl, by rfl, rfl, rfl, rfl⟩

theorem witness_FireBeginsStroke_next :
    (∀ n, Running (firingTwo .run n) ∧ ArmedBefore (firingTwo .run n) 4 ⟨9, 18, 4426, none⟩ fired (second n)) ∧
    ((firingTwo .run 4600).drive 4).state = .idle ∧ isReached (firingTwo .run 4600).bcu.count 4426 = true ∧
    isReached (firingTwo .run 4600).bcu.count (plannedNow (firingTwo .run 4600) 4 (second 4600)) = false ∧
    isReached (firingTwo .run 4444).bcu.count (plannedNow (firingTwo .run 4444) 4 (second 4444)) = true :=
  ⟨fun _ => ⟨rfl, armedBefore_firingTwo _ _⟩, by decide +kernel⟩

/-- A capture of 4,000 µs at 4,426: the fire of section 2.9 moves to 4,374, which is reached. -/
def lateCapture (m : Mode) (d : DriveState) (o : Option Count) : State := captured 4000 (firing m d o none)

theorem armedAlone_lateCapture (m : Mode) (d : DriveState) (o : Option Count) :
    ArmedAlone (lateCapture m d o) 4 ⟨9, 18, 4426, none⟩ fired := ⟨List.nodup_singleton _, by rfl, rfl, by rfl, rfl, rfl⟩

theorem witness_P8CaptureRecomputesLead_late :
    (∀ m d o, Running (lateCapture m d o) ∧ (lateCapture m d o).bcu.capture = some 4000 ∧
      ArmedAlone (lateCapture m d o) 4 ⟨9, 18, 4426, none⟩ fired) ∧
    (∀ m, m ≠ 4 → ((lateCapture .run .idle none).channel m).armed = none) ∧
    (∀ m, m ≠ 4 → ((lateCapture (.hold .run) .idle none).channel m).armed = none) ∧
    isReached 4426 (4444 - BitVec.ofNat 16
      (min ((16 * ((lateCapture .run .idle none).lane 4).latency + max 1 4000) / (2 * max 1 4000)) 255)) = true ∧
    ((lateCapture .run .idle none).drive 4).state = .idle ∧
    (((lateCapture .drain .hold (some 4500)).drive 4).state = .hold ∧
      ((lateCapture .drain .hold (some 4500)).channel 4).strokeEnd = some 4500) ∧
    ((lateCapture .run .recover none).drive 4).state = .recover ∧ fired.cls = some 3 ∧
    isReached (lateCapture (.hold .run) .idle none).bcu.count
      (endBoundsOf (lateCapture (.hold .run) .idle none) fired).2 = false :=
  ⟨fun _ _ _ => ⟨rfl, rfl, armedAlone_lateCapture _ _ _⟩, by decide +kernel⟩

theorem witness_FireExtendsStroke :
    (ArmedAlone (firing .run .hold (some 4500) none) 4 ⟨9, 18, 4426, none⟩ fired ∧
      Driven (firing .run .hold (some 4500) none) 4 ∧
      ((firing .run .hold (some 4500) none).channel 4).strokeEnd = some 4500) ∧
    (ArmedAlone (firing .drain .pull none none) 4 ⟨9, 18, 4426, none⟩ fired ∧ Driven (firing .drain .pull none none) 4 ∧
      ((firing .drain .pull none none).channel 4).strokeEnd = none) :=
  ⟨⟨armedAlone_firing _ _ _, by unfold Driven; decide +kernel, by rfl⟩,
    armedAlone_firing _ _ _, by unfold Driven; decide +kernel, by rfl⟩

theorem witness_FireDeferredInRecover :
    ArmedAlone (firing .run .recover none none) 4 ⟨9, 18, 4426, none⟩ fired ∧
    ((firing .run .recover none none).drive 4).state = .recover ∧ fired.cls = some 3 :=
  ⟨armedAlone_firing _ _ _, by decide +kernel, rfl⟩

theorem witness_FireMissedInHold :
    (ArmedAlone (firing (.hold .run) .idle none none) 4 ⟨9, 18, 4426, none⟩ fired ∧
      InHold (firing (.hold .run) .idle none none) ∧
      isReached (firing (.hold .run) .idle none none).bcu.count
        (endBoundsOf (firing (.hold .run) .idle none none) fired).2 = false) ∧
    isReached (4425 : Count) 4426 = false :=
  ⟨⟨armedAlone_firing _ _ _, .inl rfl, by decide +kernel⟩, by decide⟩

theorem witness_FireMissedInHold_next :
    ArmedBefore (firingTwo (.hold .run) 4444) 4 ⟨9, 18, 4426, none⟩ fired (second 4444) ∧
    InHold (firingTwo (.hold .run) 4444) ∧ isReached (firingTwo (.hold .run) 4444).bcu.count 4426 = true ∧
    isReached (firingTwo (.hold .run) 4444).bcu.count (plannedNow (firingTwo (.hold .run) 4444) 4 (second 4444)) = true ∧
    isReached (firingTwo (.hold .run) 4444).bcu.count (endBoundsOf (firingTwo (.hold .run) 4444) fired).2 = false ∧
    isReached (firingTwo (.hold .run) 4444).bcu.count (endBoundsOf (firingTwo (.hold .run) 4444) (second 4444)).2 = false :=
  ⟨armedBefore_firingTwo _ _, .inl rfl, by decide +kernel⟩

theorem witness_StrokeEndsAtItsCount :
    Running (stroking .hold) ∧ ((stroking .hold).channel 4).strokeEnd = some 4606 ∧
    isReached (stroking .hold).bcu.count 4606 = true ∧ ((stroking .hold).drive 4).state = .hold ∧
    ((stroking .hold).lane 4).recoveryTime ≠ 0 ∧ ((stroking .pull).drive 4).state = .pull ∧
    ((stroking .recover).drive 4).state = .recover := by
  refine ⟨rfl, ?_⟩; decide +kernel

/-- Lane 5's drive as given, in a mode. -/
def driving (m : Mode) (d : Drive) : State := inMode m |> withLane 4 openLane |> withDrive 4 d

/-- A drive with its pull time elapsed. -/
def pulled (held : Bool) : Drive := { begun openLane .fire with pullLeft := 0, endHeld := held }

theorem witness_PullTimeElapses : Running (driving .run (pulled false)) ∧
    ((driving .run (pulled false)).drive 4).state = .pull ∧ ((driving .run (pulled false)).drive 4).pullLeft = 0 ∧
    ((driving .run (pulled false)).drive 4).endHeld = false ∧
    ((driving .run (pulled true)).drive 4).endHeld = true ∧
    ((driving .run (pulled true)).lane 4).recoveryTime ≠ 0 := by
  refine ⟨rfl, ?_⟩; decide +kernel

/-- A driven stroke at its cap of 500 ms, of a kind and in a state. -/
def atCap (k : StrokeKind) (d : DriveState) : Drive := { begun openLane k with state := d, onTime := 500000 }

theorem witness_CapAndTestEndEndStrokes :
    (Driven (driving .run (atCap .fire .hold)) 4 ∧
      ((driving .run (atCap .fire .hold)).drive 4).maxOn * 10000 ≤ ((driving .run (atCap .fire .hold)).drive 4).onTime ∧
      ((driving .run (atCap .fire .hold)).lane 4).recoveryTime ≠ 0) ∧
    (((driving .setup (atCap (.test 500000) .pull)).drive 4).kind = .test 500000 ∧
      500000 ≤ ((driving .setup (atCap (.test 500000) .pull)).drive 4).onTime ∧
      ((driving .setup (atCap (.test 500000) .pull)).drive 4).endHeld = false) ∧
    ((driving .setup (atCap (.test 500000) .hold)).drive 4).state = .hold :=
  ⟨⟨by unfold Driven; decide +kernel, by decide +kernel, by decide +kernel⟩, by decide +kernel, by decide +kernel⟩

/-- A deferred fire at the end of recovery, with its late limit, in a mode. -/
def recovered (m : Mode) (late : Count) : State := firing m .recover none (some late)

theorem deferredAlone_recovered (m : Mode) (late : Count) :
    DeferredAlone (recovered m late) 4 ⟨9, 18, 4426, some late⟩ fired late :=
  ⟨List.nodup_singleton _, by rfl, rfl, by rfl, rfl, rfl⟩

theorem witness_RecoveryEndsAndDeferredFireIsJudged :
    (((driving .run (recovering 0 .fire)).drive 4).state = .recover ∧
      ((driving .run (recovering 0 .fire)).drive 4).recoveryLeft = 0 ∧
      ((driving .run (recovering 0 .fire)).channel 4).armed = none) ∧
    (Running (recovered .run 4427) ∧ ((recovered .run 4427).drive 4).state = .recover ∧
      ((recovered .run 4427).drive 4).recoveryLeft = 0 ∧
      DeferredAlone (recovered .run 4427) 4 ⟨9, 18, 4426, some 4427⟩ fired 4427 ∧
      isReached (recovered .run 4427).bcu.count 4427 = false) ∧
    (DeferredAlone (recovered .drain 4426) 4 ⟨9, 18, 4426, some 4426⟩ fired 4426 ∧
      isReached (recovered .drain 4426).bcu.count 4426 = true ∧ InHold (recovered (.hold .drain) 4427) ∧
      isReached (recovered .drain 4426).bcu.count (endBoundsOf (recovered .drain 4426) fired).2 = false) :=
  ⟨by decide +kernel,
    ⟨rfl, by decide +kernel, by decide +kernel, deferredAlone_recovered _ _, by decide +kernel⟩,
    deferredAlone_recovered _ _, by decide +kernel, .inr rfl, by decide +kernel⟩

/-- A drive in HOLD at a duty, with the carrier at a phase. -/
def holding (duty phase : Nat) : State :=
  { (driving .run { begun openLane .fire with state := .hold, duty := duty }) with
    carrier := { select := 0, pending := some 3, phase := phase } }

/-- With one drive in HOLD nothing falls due before its cap, 500 ms on. -/
theorem quietFor_holding : QuietFor (holding 32 399) 401 :=
  ⟨by decide +kernel, fun c h => by
    have e : (holding 32 399).clocksToDue = some 8000000 := by decide +kernel
    rw [e] at h; cases h; decide⟩

theorem witness_CarrierPeriods_quiet : QuietFor (holding 32 399) 401 ∧ QuietFor (holding 32 399) 1 ∧
    800 * 2 ^ (holding 32 399).carrier.select - (holding 32 399).carrier.phase = 401 :=
  ⟨quietFor_holding, ⟨quietFor_holding.nothingDue, fun c h => Nat.le_trans (by decide) (quietFor_holding.nothingSooner c h)⟩,
    by decide⟩

theorem witness_CarrierPeriods : Running (holding 32 399) ∧
    (holding 32 399).carrier.phase < 800 * 2 ^ (holding 32 399).carrier.select ∧
    ((holding 32 399).drive 4).state = .hold ∧
    400 = ((holding 32 399).drive 4).duty * (800 * 2 ^ (holding 32 399).carrier.select) / 64 ∧ 399 < 400 := by
  refine ⟨rfl, ?_⟩; decide +kernel

theorem witness_DriveOutputs : ((driving .run Drive.reset).drive 4).state = .idle ∧
    ((driving .run (pulled false)).drive 4).state = .pull ∧
    (((holding 0 0).drive 4).state = .hold ∧ ((holding 0 0).drive 4).duty = 0) ∧
    (((holding 64 799).drive 4).duty = 64 ∧ (holding 64 799).carrier.phase < 800 * 2 ^ (holding 64 799).carrier.select) ∧
    ((holding 0 0).lane 4).polarity = .activeHigh ∧
    ((holding 0 0 |> withLane 4 { openLane with polarity := .activeLow }).lane 4).polarity = .activeLow := by
  decide +kernel

/-- Lane 5 with a fill and a state, and the fired tickets of `ks`. -/
def sighting (m : Mode) (st : LaneState) (fill : Nat) (ks : List Slot) : State :=
  inMode m |> withLane 4 { openLane with state := st, fill := fill, committed := ks.length }
    |> withBelt (ks.map (fun k => { piece k .confirming (some (.lane 4)) with closeCount := some 900 }))

theorem witness_LaneSightingConfirmsOldest : Attending (sighting .drain .opened 118 [3, 2]) ∧
    SlotsDistinct (sighting .drain .opened 118 [3, 2]) ∧
    ((sighting .drain .opened 118 [3, 2]).confirmList 4).map Ticket.slot = [3, 2] ∧
    Unheld (sighting .drain .opened 118 [3, 2])
      { piece 3 .confirming (some (.lane 4)) with closeCount := some 900 } ∧
    DrainGoesOn (sighting .drain .opened 118 [3, 2])
      { piece 3 .confirming (some (.lane 4)) with closeCount := some 900 } ∧
    ((sighting .drain .opened 118 [3, 2]).lane 4).fill + 1 < ((sighting .drain .opened 118 [3, 2]).lane 4).capacity ∧
    ((sighting .drain .opened 118 [3, 2]).lane 4).fill < 999 :=
  ⟨⟨rfl, by decide⟩, by unfold SlotsDistinct; decide +kernel, by decide +kernel,
    unheld_of (by decide +kernel) (by decide +kernel), by unfold DrainGoesOn without; decide +kernel, by decide +kernel,
    by decide +kernel⟩

theorem witness_LaneStraysFillTheRack :
    (Attending (sighting .run .opened 118 []) ∧ (sighting .run .opened 118 []).confirmList 4 = [] ∧
      ((sighting .run .opened 118 []).lane 4).fill + 1 < ((sighting .run .opened 118 []).lane 4).capacity) ∧
    (SlotsDistinct (sighting .run .opened 119 []) ∧ ((sighting .run .opened 119 []).lane 4).state = .opened ∧
      ((sighting .run .opened 119 []).lane 4).capacity ≤ ((sighting .run .opened 119 []).lane 4).fill + 1 ∧
      ((sighting .run .opened 119 []).lane 4).fill < 999) ∧
    Running State.reset ∧ State.reset.mode = .setup :=
  ⟨⟨⟨rfl, by decide⟩, by decide +kernel, by decide +kernel⟩,
    ⟨by unfold SlotsDistinct; decide +kernel, by decide +kernel, by decide +kernel, by decide +kernel⟩, rfl, rfl⟩

theorem witness_LaneSightingConfirmsOldest_drain : Attending (sighting .drain .opened 118 [3]) ∧
    SlotsDistinct (sighting .drain .opened 118 [3]) ∧
    (sighting .drain .opened 118 [3]).tt.belt =
      [{ piece 3 .confirming (some (.lane 4)) with closeCount := some 900 }] ∧
    ((sighting .drain .opened 118 [3]).confirmList 4).map Ticket.slot = [3] ∧
    Unheld (sighting .drain .opened 118 [3]) { piece 3 .confirming (some (.lane 4)) with closeCount := some 900 } :=
  ⟨⟨rfl, by decide⟩, by unfold SlotsDistinct; decide +kernel, rfl, by decide +kernel,
    unheld_of (by decide +kernel) (by decide +kernel)⟩

/-- A confirm window that closes at 900, joined or not, at a lane with failures and a state. -/
def closingTicket (joined : Bool) : Ticket :=
  { piece 3 .confirming (some (.lane 4)) with closeCount := some 900, joined := joined }
def windowCloses (joined : Bool) (failures : Nat) : State :=
  inRun |> atCount 900 16000 |> withLane 4 { openLane with failures := failures, committed := 1 }
    |> withBelt [closingTicket joined]

theorem witness_ConfirmWindowClosesUnseen :
    (Running (windowCloses true 2) ∧ SlotsDistinct (windowCloses true 2) ∧
      (windowCloses true 2).nextClose? = some (closingTicket true) ∧
      (closingTicket true).dest = some (.lane 4) ∧
      isReached (windowCloses true 2).bcu.count (endBoundsOf (windowCloses true 2) (closingTicket true)).2 = false) ∧
    ((windowCloses false 1).nextClose? = some (closingTicket false) ∧
      ((windowCloses false 1).lane 4).failures + 1 < (windowCloses false 1).geo.faultLimit) ∧
    ((windowCloses false 2).nextClose? = some (closingTicket false) ∧
      (windowCloses false 2).geo.faultLimit ≤ ((windowCloses false 2).lane 4).failures + 1 ∧
      ((windowCloses false 2).lane 4).failures < 15 ∧ ((windowCloses false 2).lane 4).state = .opened) :=
  ⟨⟨rfl, by unfold SlotsDistinct; decide +kernel, by decide +kernel, rfl, by decide +kernel⟩, by decide +kernel,
    by decide +kernel⟩

theorem witness_ConfirmWindowClosesUnseen_faulted : CommitmentsKept (windowCloses false 2) ∧
    (∀ m a, ((windowCloses false 2).channel m).armed = some a → a.slot ≠ 3) ∧
    (windowCloses false 2).confirmList 4 = [closingTicket false] ∧
    ((((windowCloses false 2).modLane 4 (fun r => { r with state := .full })).lane 4).state = .full ∧
      ((windowCloses false 2).modLane 4 (fun r => { r with state := .full })).nextClose? =
        some (closingTicket false)) := by
  have h : ∀ m, ((windowCloses false 2).channel m).armed = none := by decide +kernel
  refine ⟨⟨by unfold SlotsDistinct; decide +kernel, by unfold commitmentsAt; decide +kernel⟩,
    fun m a e => ?_, by decide +kernel, by decide +kernel⟩
  rw [h m] at e; cases e

/-- The ticket of `runningOff`. -/
def offPiece : Ticket := { piece 3 .runningOff (some .runOff) with endBounds := some (1960, 2040) }

theorem witness_EndSightings :
    (Attending (runningOff 1960) ∧ (runningOff 1960).em.eye = .clear ∧ SlotsDistinct (runningOff 1960) ∧
      (runningOff 1960).tt.belt = [] ++ offPiece :: [] ∧ 0 ≤ signedDiff 1960 (runningOff 1960).bcu.count ∧
      0 ≤ signedDiff (runningOff 2040).bcu.count 2040 ∧ Unheld (runningOff 1960) offPiece ∧
      DrainGoesOn (runningOff 1960) offPiece) ∧
    (∀ u ∈ (runningOff 2041).tt.belt, u.endContains (runningOff 2041).bcu.count = false) ∧
    Running State.reset ∧ State.reset.mode = .setup :=
  ⟨⟨⟨rfl, by decide⟩, rfl, by unfold SlotsDistinct; decide +kernel, rfl, by decide +kernel, by decide +kernel,
    unheld_of (by decide +kernel) (by decide +kernel), by unfold DrainGoesOn; decide +kernel⟩, by decide +kernel, rfl, rfl⟩

/-- A DOUBT ticket at the upper bound of its end window, its lane with room for one more. -/
def doubtPiece : Ticket := { piece 3 .doubt (some (.lane 4)) with endBounds := some (1960, 2040) }
def doubtful : State := inRun |> atCount 2040 16000 |> withLane 4 { openLane with fill := 118 } |> withBelt [doubtPiece]

/-- A state in DRAIN. -/
def inDrain (s : State) : State := { s with mc := { mode := .drain, guard := .closed, cause := .power } }

theorem witness_EndSightings_drain : Running (inDrain (runningOff 1960)) ∧ (inDrain (runningOff 1960)).mode = .drain ∧
    (inDrain (runningOff 1960)).em.eye = .clear ∧ (inDrain (runningOff 1960)).tt.belt = [offPiece] ∧
    0 ≤ signedDiff (1960 : Count) (inDrain (runningOff 1960)).bcu.count ∧
    0 ≤ signedDiff (inDrain (runningOff 1960)).bcu.count 2040 ∧ Unheld (inDrain (runningOff 1960)) offPiece :=
  ⟨rfl, rfl, rfl, rfl, by decide +kernel, by decide +kernel, unheld_of (by decide +kernel) (by decide +kernel)⟩

theorem witness_EndWindowExpires_drain :
    ((inDrain (runningOff 2040)).ticketAt? 3 = some offPiece ∧ (inDrain (runningOff 2040)).tt.belt = [offPiece] ∧
      isReached (inDrain (runningOff 2040)).bcu.count 2040 = true ∧ Unheld (inDrain (runningOff 2040)) offPiece) ∧
    ((inDrain doubtful).ticketAt? 3 = some doubtPiece ∧ (inDrain doubtful).tt.belt = [doubtPiece] ∧
      isReached (inDrain doubtful).bcu.count 2040 = true ∧ Unheld (inDrain doubtful) doubtPiece ∧
      ((inDrain doubtful).lane 4).fill + 1 < ((inDrain doubtful).lane 4).capacity) :=
  ⟨⟨by decide +kernel, rfl, by decide +kernel, unheld_of (by decide +kernel) (by decide +kernel)⟩,
    by decide +kernel, rfl, by decide +kernel, unheld_of (by decide +kernel) (by decide +kernel), by decide +kernel⟩

theorem witness_EndWindowExpires :
    ((runningOff 2040).ticketAt? 3 = some offPiece ∧ isReached (runningOff 2040).bcu.count 2040 = true ∧
      Unheld (runningOff 2040) offPiece ∧ DrainGoesOn (runningOff 2040) offPiece) ∧
    (Running doubtful ∧ doubtful.ticketAt? 3 = some doubtPiece ∧ isReached doubtful.bcu.count 2040 = true ∧
      Unheld doubtful doubtPiece ∧ DrainGoesOn doubtful doubtPiece ∧
      (doubtful.lane 4).fill + 1 < (doubtful.lane 4).capacity ∧ (doubtful.lane 4).fill < 999) :=
  ⟨⟨by decide +kernel, by decide +kernel, unheld_of (by decide +kernel) (by decide +kernel),
    by unfold DrainGoesOn; decide +kernel⟩,
    rfl, by decide +kernel, by decide +kernel, unheld_of (by decide +kernel) (by decide +kernel),
    by unfold DrainGoesOn; decide +kernel, by decide +kernel, by decide +kernel⟩

/-- The guard open in SETUP. -/
def openSetup : State := { State.reset with mc := { mode := .setup, guard := .opened, cause := .power } }

theorem witness_GuardEdges :
    (InHold (inMode (.hold .run))) ∧
    (inRun.mc.guard = .closed ∧ inRun.mode = HeldFrom.mode .run ∧ ∀ l, ¬ Driven inRun l) ∧
    (Driven (stroking .hold) 4 ∧ (∀ m, m ≠ 4 → ¬ Driven (stroking .hold) m) ∧
      ((stroking .hold).lane 4).recoveryTime ≠ 0) ∧
    (Running (driving .setup (atCap (.test 500000) .hold)) ∧
      ((driving .setup (atCap (.test 500000) .hold)).drive 4).inTest = true ∧
      ((driving .setup (atCap (.test 500000) .hold)).drive 3).inTest = false) ∧
    (Listening openSetup ∧ openSetup.mode = .setup ∧ openSetup.mc.guard = .opened) :=
  ⟨.inl rfl, ⟨rfl, rfl, undriven_of (by decide +kernel)⟩,
    ⟨by unfold Driven; decide +kernel, by unfold Driven; decide +kernel, by decide +kernel⟩,
    ⟨rfl, by decide +kernel, by decide +kernel⟩, listening_of (by decide), rfl, rfl⟩

/-- The supervisory line with a frame state, a selection, a reply due and one in transmission. -/
def onLine (f : FrameState) (broadcast : Bool) (due sent : Option Reply) : State :=
  { inRun with sli := { inRun.sli with frame := f, broadcast := broadcast, reply := due, sending := sent } }

/-- A reply without data, to SOFT RESET or to another command. -/
def okReply (soft : Bool) : Reply := { status := .ok, data := [], softReset := soft }

theorem witness_AddressCharacterSelects :
    ((onLine .ignoring false none (some (okReply false))).sli.sending ≠ none) ∧
    (Running (onLine .unselected false none none) ∧ (onLine .unselected false none none).sli.sending = none ∧
      (onLine .unselected false none none).sli.reply = none) ∧
    ((onLine .ignoring false (some (okReply false)) none).sli.reply = some (okReply false) ∧
      (okReply false).softReset = false) ∧
    ((onLine .ignoring false (some (okReply true)) none).sli.reply = some (okReply true) ∧
      (okReply true).softReset = true) := ⟨by decide, ⟨rfl, rfl, rfl⟩, ⟨rfl, rfl⟩, rfl, rfl⟩

theorem witness_DataCharactersBuildFrames :
    (Running (onLine .selected false none none) ∧ (onLine .selected false none none).sli.sending = none ∧
      (onLine .selected false none none).sli.frame = .selected ∧ (onLine .selected false none none).sli.address ≠ 0 ∧
      Instr.commandCharacter 0x30 ∈ [Instr.commandCharacter 0x30, .unknownCommand 0x30]) ∧
    ((onLine .selected true none none).sli.broadcast = true ∧ (0x01 : Byte).toNat ≠ 9 ∧ (0x01 : Byte).toNat ≠ 10) ∧
    ((onLine (.collecting 0x30 []) false none none).sli.frame = .collecting 0x30 [] ∧
      frameShape 0x30 = some (.fixed 2) ∧ ([] : List Byte).length + 1 < 2) ∧
    ((onLine (.collecting 0x21 [0]) false none none).sli.frame = .collecting 0x21 [0] ∧
      ((64 : Byte).toNat ≤ 64 ∧ 64 < (65 : Byte).toNat)) ∧
    (onLine .ignoring false none none).sli.frame = .ignoring := by
  refine ⟨⟨rfl, rfl, rfl, ?_⟩, ⟨rfl, ?_⟩, ⟨rfl, rfl, ?_⟩, ⟨rfl, ?_⟩, rfl⟩ <;> decide

theorem witness_FramesFromCharacters : Listening inRun ∧ 1 ≤ (List.replicate 64 (0 : Byte)).length ∧
    (List.replicate 64 (0 : Byte)).length ≤ 64 ∧ FrameOf .softReset 0x0B [] ∧
    FrameOf (.findTickets 2 12 0) 0x31 [2, 12, 0] ∧ Running inRun ∧ inRun.sli.sending = none :=
  ⟨listening_inMode _, by decide, by decide, .softReset, .findTickets 2 12 0, rfl, rfl⟩

/-- The characters of a 14-character and a 9-character record, low character first (Table 11-4). -/
theorem test_recordCharacters :
    laneWriteChars ⟨0x1234, 0x88B8, 0x0102, 0, 0x2710, 32, 1, 0x4E20, 1⟩ =
      [0x34, 0x12, 0xB8, 0x88, 0x02, 0x01, 0, 0x10, 0x27, 32, 1, 0x20, 0x4E, 1] ∧
    geometryChars ⟨2, 0x7530, 0x00C8, 40, 50, 3⟩ = [2, 0x30, 0x75, 0xC8, 0x00, 40, 50, 3] := by decide

theorem witness_LineErrorsAndFrameGap :
    (Running inRun ∧ LineChar.good ⟨0x121, true, false⟩ = false ∧ inRun.sli.sending = none ∧ inRun.sli.reply = none) ∧
    (10000 < 10001 ∧ (onLine .selected false none none).sli.frame = .selected) ∧
    (onLine .unselected false none none).sli.frame = .unselected := ⟨⟨rfl, by decide, rfl, rfl⟩, ⟨by decide, rfl⟩, rfl⟩

/-- A reply due after the quiet, and one just sent. -/
def quiet : State := { inRun with sli := { inRun.sli with reply := some (okReply false), quietTimer := 2496 } }
def sent : State := { inRun with sli := { inRun.sli with sending := some (okReply false), sendTimer := 2496 } }

theorem witness_RepliesBeginAndEnd :
    (Running quiet ∧ quiet.sli.reply = some (okReply false) ∧
      2 * (12 * lineBitTime quiet.sli.baud) ≤ quiet.sli.quietTimer) ∧
    (Running sent ∧ sent.sli.sending = some (okReply false) ∧
      ((okReply false).data.length + 2) * (12 * lineBitTime sent.sli.baud) ≤ sent.sli.sendTimer) :=
  ⟨⟨rfl, rfl, by decide⟩, rfl, rfl, by decide⟩

theorem witness_ReadsAnswerAndChangeNothing :
    Listening (armedLife 4130) ∧ (0 : Byte).toNat + (64 : Byte).toNat ≤ 64 ∧
    (1 : Byte).toNat + (12 : Byte).toNat ≤ 13 ∧ 13 < (2 : Byte).toNat + (12 : Byte).toNat ∧
    (255 : Byte).toNat + (1 : Byte).toNat ≤ 256 ∧ 256 < (255 : Byte).toNat + (2 : Byte).toNat ∧
    64 < (1 : Byte).toNat + (64 : Byte).toNat ∧ (7 : Byte).toNat + (1 : Byte).toNat ≤ 8 ∧
    8 < (7 : Byte).toNat + (2 : Byte).toNat ∧ ((0 : Byte).toNat = 0 ∧ 64 < (65 : Byte).toNat) ∧
    SlotsDistinct (armedLife 4130) ∧ (armedLife 4130).tt.belt = [fired] ∧ fired.slot.val = (9 : Byte).toNat ∧
    fired.generation.toNat = (4 : Byte).toNat ∧ fired.generation.toNat ≠ (3 : Byte).toNat ∧
    (armedLife 4130).mode ≠ .setup ∧ (armedLife 4130).scope? 0 0 = some [fired] ∧
    (127 < (128 : Byte).toNat ∧ 15 < (16 : Byte).toNat) ∧ 4 < (5 : Byte).toNat ∧ 12 < (13 : Byte).toNat :=
  ⟨listening_of (by decide +kernel), by decide, by decide, by decide, by decide, by decide, by decide, by decide,
    by decide, by decide, by unfold SlotsDistinct; decide +kernel, rfl, by decide, by decide, by decide, by decide, rfl,
    ⟨by decide, by decide⟩, by decide, by decide⟩

/-- Handles out of range, an unknown scope, and lane 0 and 13 with ROUTE and CONFIRM (R33, R34); lane 12 is a lane. -/
theorem test_reads_badParam :
    (∀ i ∈ [Instr.readTicket 128 0, .readTicket 0 16, .findTickets 5 1 0, .findTickets 2 0 0, .findTickets 2 13 0,
      .findTickets 3 0 0, .findTickets 3 13 0], replyTo i (armedLife 4130) = some (.badParam, [])) ∧
    replyTo (.findTickets 3 12 0) (armedLife 4130) = some (.ok, [0, 0]) := by decide +kernel

theorem witness_AttentionAcknowledgedAndMasked : Listening inRun ∧ (0x0200 : Word).getLsbD Flag.endStray.index = true ∧
    (inRun.raise .endStray).flagSet .endStray = true ∧ inRun.sli.mask.getLsbD Flag.endStray.index = true :=
  ⟨listening_inMode _, by decide, by decide +kernel, by decide⟩

theorem divertersStill_hold (h : HeldFrom) : DivertersStill (inMode (.hold h)) :=
  ⟨fun e => (by cases e), fun _ => undriven_of (by change ∀ l, (State.reset.drive l).driven = false; decide +kernel), fun e => (by cases e),
    fun e => (by cases e), fun e => absurd rfl e⟩

theorem witness_SetModeTable_hold (h : HeldFrom) : Listening (inMode (.hold h)) ∧ (inMode (.hold h)).mode = .hold h ∧
    DivertersStill (inMode (.hold h)) ∧ CommitmentsKept (inMode (.hold h)) :=
  ⟨listening_inMode _, rfl, divertersStill_hold h, ⟨by unfold SlotsDistinct; exact List.nodup_nil,
    by
      change ∀ l, (State.reset.lane l).committed = 0; decide +kernel⟩⟩

theorem witness_SetModeTable : (∀ m, Listening (inMode m)) ∧ inRun.tt.belt = [] ∧ (∀ l, ¬ Driven inRun l) ∧
    (runningOff 1960).tt.belt ≠ [] ∧ 2 < (3 : Byte).toNat :=
  ⟨listening_inMode, rfl, undriven_of (by decide +kernel), by decide +kernel, by decide⟩

/-- One lane installed at 1,614 with the end at exactly 1,614 + 200 + 40 + 1, and the end one count nearer. -/
def ready (endDistance : Nat) : State :=
  let s := State.reset |> withLane 4 { LaneRecord.reset with distance := 1614 }
  { s with geo := { s.geo with endDistance := endDistance } }

theorem geometryPasses_ready : GeometryPasses (ready 1855) where
  ordered := by unfold Ordered OutOfOrder Installed; decide +kernel
  firstFar := by unfold FirstFarEnough FirstInstalled Installed; decide +kernel
  endFar := by unfold EndFarEnough LastInstalled Installed; decide +kernel
  residue := by intro l h; cases h
  someLane := ⟨4, by unfold Installed; decide +kernel⟩

theorem witness_SetModeRunChecksGeometry :
    (Listening (ready 1855) ∧ (ready 1855).mode = .setup ∧ GeometryPasses (ready 1855) ∧
      (ready 1855).mc.guard = .closed ∧ ∀ l, ((ready 1855).drive l).inTest = false) ∧
    (Listening (ready 1854) ∧ GeometryFails (ready 1854) (3 : Byte).toNat (5 : Byte).toNat ∧
      (ready 1854).geo.endDistance ≤ 30000) ∧
    GeometryPasses { ready 1855 with mc := openSetup.mc } :=
  ⟨⟨listening_of (by decide), rfl, geometryPasses_ready, rfl, by decide +kernel⟩,
    ⟨listening_of (by decide), .inr (.inr (.inl ⟨rfl, by unfold Ordered OutOfOrder Installed; decide +kernel,
      by unfold FirstFarEnough FirstInstalled Installed; decide +kernel, 4, rfl,
      by unfold LastInstalled Installed; decide +kernel, by unfold EndFarEnough LastInstalled Installed; decide +kernel⟩)),
      by decide⟩,
    ⟨geometryPasses_ready.ordered, geometryPasses_ready.firstFar, geometryPasses_ready.endFar,
      geometryPasses_ready.residue, geometryPasses_ready.someLane⟩⟩

theorem witness_HoldAndResume : Listening State.reset ∧ State.reset.mode = .setup ∧ inRun.mode = HeldFrom.mode .run ∧
    (∀ l, ¬ Driven inRun l) ∧ (inMode (.hold .drain)).mode = .hold .drain ∧ (inMode (.hold .drain)).tt.belt = [] ∧
    (inMode (.hold .drain)).mc.guard = .closed :=
  ⟨listening_inMode .setup, rfl, rfl, undriven_of (by decide +kernel), rfl, rfl, rfl⟩

theorem witness_HoldAndResume_fires :
    (inMode (.hold .drain)).countDue = [] ∧
    (Listening (firing (.hold .run) .idle none none) ∧ (firing (.hold .run) .idle none none).mc.guard = .closed ∧
      ArmedAlone (firing (.hold .run) .idle none none) 4 ⟨9, 18, 4426, none⟩ fired ∧
      isReached (firing (.hold .run) .idle none none).bcu.count 4426 = true ∧
      (firing (.hold .run) .idle none none).countDue = [.fire 4] ∧
      isReached (firing (.hold .run) .idle none none).bcu.count
        (endBoundsOf (firing (.hold .run) .idle none none) fired).2 = false) ∧
    Listening openSetup :=
  ⟨by decide +kernel, ⟨listening_of (by decide +kernel), rfl, armedAlone_firing _ _ _, by decide +kernel⟩,
    listening_of (by decide)⟩

/-- The armed ticket of section 2.9 in HOLD at 4,400, with a capture of 4,000 µs that moves its fire to 4,374. -/
def captureInHold : State :=
  { captured 4000 (armedLife 4400) with mc := { mode := .hold .run, guard := .closed, cause := .power } }

theorem witness_HoldAndResume_capture : Listening captureInHold ∧ captureInHold.mode = .hold .run ∧
    ArmedAlone captureInHold 4 ⟨9, 18, 4426, none⟩ fired ∧ captureInHold.bcu.capture = some 4000 ∧
    captureInHold.countDue = [.capture] ∧ (∀ m, m ≠ 4 → (captureInHold.channel m).armed = none) ∧
    isReached captureInHold.bcu.count (4444 - BitVec.ofNat 16
      (min ((16 * (captureInHold.lane 4).latency + max 1 4000) / (2 * max 1 4000)) 255)) = true ∧
    isReached captureInHold.bcu.count (endBoundsOf captureInHold fired).2 = false :=
  ⟨listening_of (by decide +kernel), rfl, ⟨List.nodup_singleton _, by rfl, rfl, by rfl, rfl, rfl⟩, rfl,
    by decide +kernel, by decide +kernel, by decide +kernel, by decide +kernel⟩

theorem witness_WriteGeometryAppliesAndClamps :
    Listening State.reset ∧ inRun.mode ≠ .setup ∧ 7 < (8 : Byte).toNat ∧ (7 : Byte).toNat ≤ 7 ∧
    30000 = max 1 (min (30001 : Word).toNat 30000) ∧ 1023 = min (1024 : Word).toNat 1023 ∧ 1 = max 1 (0 : Byte).toNat ∧
    15 = max 1 (min (16 : Byte).toNat 15) ∧ State.reset.bcu.motion = .stopped :=
  ⟨listening_inMode .setup, by decide, by decide, by decide, by decide, by decide, by decide, by decide, rfl⟩

theorem witness_WriteLanesConfigures :
    Listening State.reset ∧ (12 : Byte).toNat + [(⟨0, 0, 1, 12, 0, 64, 1, 0, 1⟩ : LaneWrite)].length ≤ 13 ∧
    (∀ w ∈ [(⟨0, 0, 1, 12, 0, 64, 1, 0, 1⟩ : LaneWrite)], w.overflow.toNat ≤ 12 ∧ w.polarity.toNat ≤ 1) ∧
    13 < (13 : Byte).toNat + [(⟨0, 0, 1, 12, 0, 64, 1, 0, 1⟩ : LaneWrite)].length ∧
    (11 : Byte).toNat + [(⟨0, 0, 1, 12, 0, 64, 1, 0, 1⟩ : LaneWrite), ⟨0, 0, 1, 13, 0, 64, 1, 0, 2⟩].length ≤ 13 ∧
    12 < (13 : Byte).toNat ∧ 1 < (2 : Byte).toNat :=
  ⟨listening_inMode .setup, by decide, by decide, by decide, by decide, by decide⟩

theorem witness_CarrierTestStrokeAndSoftReset :
    Listening State.reset ∧ (7 : Byte).toNat ≤ 7 ∧ 7 < (8 : Byte).toNat ∧
    State.reset.carrier.phase < 800 * 2 ^ State.reset.carrier.select ∧ (11 : Lane).val + 1 = (12 : Byte).toNat ∧
    (State.reset.drive 11).state = .idle ∧ ((driving .setup (atCap (.test 1) .hold)).drive 4).state ≠ .idle ∧
    Listening openSetup := by
  refine ⟨listening_inMode .setup, ?_, ?_, ?_, ?_, ?_, ?_, listening_of (by decide)⟩ <;> decide +kernel

/-- Lane 5 in a state with a fill of its capacity, 120, or one below. -/
def lane5 (st : LaneState) (fill : Nat) : State := inRun |> withLane 4 { openLane with state := st, fill := fill }

theorem listening_lane5 (st : LaneState) (fill : Nat) : Listening (lane5 st fill) :=
  ⟨rfl, rfl, show (1 : BitVec 5) ≠ 0 by decide, rfl⟩

theorem witness_LaneCommandsChangeState :
    (∀ st fill, Listening (lane5 st fill)) ∧ (0 : Byte).toNat = 0 ∧ 12 < (13 : Byte).toNat ∧
    (4 : Lane).val + 1 = (5 : Byte).toNat ∧ (State.reset.lane 4).distance = 0 ∧
    ((lane5 .closed 119).lane 4).fill < ((lane5 .closed 119).lane 4).capacity ∧
    ((lane5 .faulted 120).lane 4).capacity ≤ ((lane5 .faulted 120).lane 4).fill ∧
    ((lane5 .opened 119).lane 4).state = .opened ∧ SlotsDistinct (lane5 .opened 119) ∧
    ((lane5 .full 120).lane 4).fill < 121 ∧ 119 ≤ ((lane5 .opened 119).lane 4).fill ∧ 999 = min (1000 : Word).toNat 999 :=
  ⟨listening_lane5, rfl, by decide, rfl, rfl, by decide +kernel, by decide +kernel, by decide +kernel,
    by unfold SlotsDistinct; decide +kernel, by decide +kernel, by decide +kernel, by decide⟩

/-- The ticket of section 2.9 armed at lane 5, with so many hops; lane 5's link, and lane 7 OPEN beyond it. -/
def queuedPiece (hops : Nat) : Ticket := { fired with hops := hops }
def closingOne (hops : Nat) (link : Dest) : State :=
  let s := armedLife 4130 |> withLane 4 { openLane with committed := 1, overflow := link }
    |> withLane 6 { openLane with distance := 6400 } |> withBelt [queuedPiece hops]
  { s with sli := { s.sli with address := 1 } }

theorem witness_LaneCommandsChangeState_pass :
    (∀ hops link, (closingOne hops link).tt.belt = [queuedPiece hops] ∧
      ((closingOne hops link).channel 4).armed = some ⟨9, 18, 4426, none⟩) ∧
    (Listening (closingOne 5 (.lane 6)) ∧ ((closingOne 5 (.lane 6)).lane 4).state = .opened ∧
      ((closingOne 5 (.lane 6)).lane 4).overflow = .lane 6 ∧ (closingOne 5 (.lane 6)).eligible (queuedPiece 5) 3 6 = true ∧
      ((closingOne 5 (.lane 6)).channel 6).armed = none ∧
      isReached (closingOne 5 (.lane 6)).bcu.count ((closingOne 5 (.lane 6)).nominalAt (queuedPiece 5) 3 6 -
        BitVec.ofNat 16 ((closingOne 5 (.lane 6)).lead 6)) = false) ∧
    (((closingOne 0 .runOff).lane 4).overflow = .runOff ∧ 6 ≤ (queuedPiece 6).hops) ∧
    ((closingOne 5 (.lane 7)).eligible (queuedPiece 5) 3 7 = false ∧
      ((closingOne 5 (.lane 7)).lane 7).overflow = .runOff) ∧
    isReached (closingOne 6 (.lane 6)).bcu.count (endBoundsOf (closingOne 6 (.lane 6)) (queuedPiece 6)).2 = false :=
  ⟨fun _ _ => ⟨rfl, rfl⟩, ⟨listening_of (by decide +kernel), by decide +kernel⟩, by decide +kernel⟩

theorem witness_RackExchangedEmptiesTheRack : Listening (lane5 .full 120) ∧ (4 : Lane).val + 1 = (5 : Byte).toNat ∧
    ((lane5 .full 120).lane 4).state = .full ∧ 0 < ((lane5 .full 120).lane 4).capacity :=
  ⟨listening_lane5 _ _, rfl, by decide +kernel, by decide +kernel⟩

theorem witness_CatalogueWrites :
    Listening dishes ∧ (255 : Byte).toNat + [(⟨2, 7⟩ : PatternWrite)].length ≤ 256 ∧
    256 < (255 : Byte).toNat + [(⟨2, 7⟩ : PatternWrite), ⟨0, 9⟩].length ∧
    (∀ w ∈ [(⟨2, 7⟩ : PatternWrite)], w.state.toNat = 0 ∨ (w.state.toNat ≤ 2 ∧ w.owner.toNat < 8)) ∧
    (63 : Byte).toNat + [(0xFF : Byte)].length ≤ 64 ∧ (∀ b ∈ [(0xFF : Byte)], b.toNat < 8 ∨ b = 0xFF) ∧
    [(12 : Byte), 13] = [12] ++ 13 :: [] ∧ (12 : Byte).toNat ≤ 12 ∧ 12 < (13 : Byte).toNat ∧
    (7 : Byte).toNat + [(⟨0, 0, 0, 0, 0⟩ : ClassWrite)].length ≤ 8 ∧ 7 < (8 : Byte).toNat ∧
    (Dest.lane 11).number = (12 : Byte).toNat := by
  refine ⟨listening_of (by decide +kernel), ?_, ?_, ?_, ?_, ?_, ?_, ?_, ?_, ?_, ?_, ?_⟩ <;> decide

theorem witness_CatalogueWrites_refused :
    ([⟨1, 3⟩, ⟨1, 8⟩] = [(⟨1, 3⟩ : PatternWrite)] ++ ⟨1, 8⟩ :: [] ∧ (1 : Byte).toNat ≠ 0 ∧ 8 ≤ (8 : Byte).toNat ∧
      2 < (3 : Byte).toNat ∧ (254 : Byte).toNat + 2 ≤ 256) ∧
    ([(7 : Byte), 0xFF, 8] = [7, 0xFF] ++ 8 :: [] ∧ 8 ≤ (8 : Byte).toNat ∧ (8 : Byte) ≠ 0xFF ∧
      (61 : Byte).toNat + 3 ≤ 64) ∧
    64 < (62 : Byte).toNat + [(0 : Byte), 0, 0].length ∧
    8 < (8 : Byte).toNat + [(⟨0, 0, 0, 0, 0⟩ : ClassWrite)].length := by decide

/-- A piece running off with lane 5 eligible for it, and one routed there. -/
def offAhead : Ticket := { piece 3 .runningOff (some .runOff) with endBounds := some (8960, 9040) }
def redirecting (t : Ticket) : State := life 1200 |> withBelt [t]

theorem witness_RedirectMovesTicket_refused :
    (Listening State.reset ∧ 127 < (128 : Byte).toNat ∧ 15 < (16 : Byte).toNat ∧ 12 < (13 : Byte).toNat) ∧
    (Listening (redirecting (piece 3 .doubt (some (.lane 4)))) ∧
      SlotsDistinct (redirecting (piece 3 .doubt (some (.lane 4)))) ∧ (3 : Slot).val = (3 : Byte).toNat ∧
      (piece 3 .doubt (some (.lane 4))).generation.toNat ≠ (0 : Byte).toNat) ∧
    (Listening (recovered .run 4427) ∧ (recovered .run 4427).mode ≠ .setup ∧
      DeferredAlone (recovered .run 4427) 4 ⟨9, 18, 4426, some 4427⟩ fired 4427 ∧
      (recovered .run 4427).tt.belt = [fired]) ∧
    ((redirecting offAhead).targetEligible offAhead (.lane 5) = false ∧ (Dest.lane 5).number = (6 : Byte).toNat) :=
  ⟨⟨listening_inMode .setup, by decide⟩,
    ⟨listening_of (by decide +kernel), by unfold SlotsDistinct; decide +kernel, by decide⟩,
    ⟨listening_of (by decide +kernel), by decide, deferredAlone_recovered _ _, rfl⟩, by decide +kernel⟩

/-- A piece bound for lane 6 that `offAhead` follows too closely. -/
def otherLane : Ticket := { piece 2 .routed (some (.lane 5)) with induction := 880 }
def besideOther : State := life 1200 |> withBelt [otherLane, offAhead]

theorem witness_RedirectMovesTicket_crowded : Listening besideOther ∧ SlotsDistinct besideOther ∧
    besideOther.tt.belt = [otherLane, offAhead] ∧ Redirectable besideOther offAhead ∧
    besideOther.targetEligible offAhead (.lane 4) = true ∧ besideOther.redirectSplits offAhead (.lane 4) = true ∧
    otherLane.dest = some (.lane 5) ∧ TooClose besideOther otherLane offAhead :=
  ⟨listening_of (by decide +kernel), by unfold SlotsDistinct; decide +kernel, rfl, .inr (.inl rfl), by decide +kernel,
    by decide +kernel, rfl, 0, rfl, by decide +kernel⟩

theorem witness_RedirectMovesTicket_taken :
    (Listening (redirecting offAhead) ∧ (redirecting offAhead).mode ≠ .setup ∧ SlotsDistinct (redirecting offAhead) ∧
      (redirecting offAhead).tt.belt = [offAhead] ∧ offAhead.slot.val = (3 : Byte).toNat ∧
      offAhead.generation.toNat = (1 : Byte).toNat ∧ Redirectable (redirecting offAhead) offAhead ∧
      (∀ d ∈ [Dest.runOff, .lane 4], (redirecting offAhead).targetEligible offAhead d = true ∧
        (redirecting offAhead).redirectSplits offAhead d = false) ∧
      (redirecting offAhead).eligible offAhead 0 4 = true ∧ ((redirecting offAhead).channel 4).armed = none) ∧
    (ArmedAlone (firing .run .idle none none) 4 ⟨9, 18, 4426, none⟩ fired ∧
      (firing .run .idle none none).tt.belt = [fired] ∧ fired.slot.val = (9 : Byte).toNat ∧
      fired.generation.toNat = (4 : Byte).toNat ∧
      isReached (firing .run .idle none none).bcu.count (endBoundsOf (firing .run .idle none none) fired).2 = false) :=
  ⟨⟨listening_of (by decide +kernel), by decide, by unfold SlotsDistinct; decide +kernel, rfl, rfl, rfl, .inr (.inl rfl),
    by decide +kernel, by decide +kernel, by decide +kernel⟩, armedAlone_firing _ _ _, rfl, rfl, rfl, by decide +kernel⟩

theorem witness_PullAndClearTallies :
    (Listening (runningOff 1500) ∧ (runningOff 1500).mode ≠ .setup ∧ SlotsDistinct (runningOff 1500) ∧
      (runningOff 1500).tt.belt = [offPiece] ∧ offPiece.slot.val = (3 : Byte).toNat ∧
      offPiece.generation.toNat = (1 : Byte).toNat ∧ offPiece.laneDest = none ∧ Unheld (runningOff 1500) offPiece ∧
      DrainGoesOn (runningOff 1500) offPiece) ∧
    ((windowCloses true 2).routeQueue 4 = [] ∧ (closingTicket true).state = .confirming ∧
      Listening (windowCloses true 2) ∧ Unheld (windowCloses true 2) (closingTicket true)) ∧
    (piece 3 .stroking none).state = .stroking :=
  ⟨⟨listening_of (by decide +kernel), by decide, by unfold SlotsDistinct; decide +kernel, rfl, rfl, rfl, rfl,
    unheld_of (by decide +kernel) (by decide +kernel), by unfold DrainGoesOn; decide +kernel⟩,
    ⟨by decide +kernel, rfl, listening_of (by decide +kernel), unheld_of (by decide +kernel) (by decide +kernel)⟩, rfl⟩

theorem witness_PullAndClearTallies_refused : Listening State.reset ∧ State.reset.mode = .setup ∧
    127 < (128 : Byte).toNat ∧ 15 < (16 : Byte).toNat ∧ (127 : Byte).toNat ≤ 127 ∧ (15 : Byte).toNat ≤ 15 ∧
    ∀ t ∈ (runningOff 1500).tt.belt, t.slot.val = (3 : Byte).toNat → t.generation.toNat ≠ (2 : Byte).toNat :=
  ⟨listening_inMode .setup, rfl, by decide, by decide, by decide, by decide, by decide⟩

theorem witness_PullAndClearTallies_queued :
    (Listening (firingTwo .run 4600) ∧ SlotsDistinct (firingTwo .run 4600) ∧ (second 4600).state = .routed ∧
      (second 4600).dest = some (.lane 4) ∧ (firingTwo .run 4600).routeQueue 4 = [fired, second 4600] ∧
      ((firingTwo .run 4600).channel 4).armed = some ⟨9, 18, 4426, none⟩ ∧
      (firingTwo .run 4600).ind.underEye = none ∧ (second 4600).slot.val = (10 : Byte).toNat) ∧
    (ArmedBefore (firingTwo .run 4600) 4 ⟨9, 18, 4426, none⟩ fired (second 4600) ∧
      isReached (firingTwo .run 4600).bcu.count (plannedNow (firingTwo .run 4600) 4 (second 4600)) = false) ∧
    (Listening (recovered .run 4427) ∧ ((recovered .run 4427).channel 4).armed = some ⟨9, 18, 4426, some 4427⟩ ∧
      (recovered .run 4427).routeQueue 4 = [fired] ∧ (recovered .run 4427).ind.underEye = none ∧
      (recovered .run 4427).mode = .run) ∧
    (Listening doubtful ∧ doubtPiece.state = .doubt ∧ doubtful.routeQueue 4 = [] ∧ Unheld doubtful doubtPiece ∧
      Unheld (inDrain doubtful) doubtPiece ∧ (inDrain doubtful).tt.belt = [doubtPiece]) :=
  ⟨⟨listening_of (by decide +kernel), (armedBefore_firingTwo _ _).slots, rfl, rfl, rfl, rfl, rfl, by decide⟩,
    ⟨armedBefore_firingTwo _ _, by decide +kernel⟩, ⟨listening_of (by decide +kernel), rfl, rfl, rfl, rfl⟩,
    listening_of (by decide +kernel), rfl, by decide +kernel, unheld_of (by decide +kernel) (by decide +kernel),
    unheld_of (by decide +kernel) (by decide +kernel), rfl⟩

/-- The last ticket in DRAIN: pending under the eye, queued behind nothing, in its confirm window, and armed. -/
theorem witness_PullAndClearTallies_last :
    (Listening (underEye false) ∧ SlotsDistinct (underEye false) ∧ (underEye false).ind.underEye = some 0 ∧
      (underEye false).mode = .run ∧ (newTicket 0 4 6 65200).state = .pendingRead ∧
      (newTicket 0 4 6 65200).laneDest = none) ∧
    ((inDrain (underEye false)).mode = .drain ∧
      (inDrain (underEye false)).tt.belt = [{ newTicket 0 4 6 65200 with readHeld := false }]) ∧
    (Unheld (inDrain (life 1000 |> withBelt [second 4600])) (second 4600) ∧ (second 4600).state = .routed ∧
      (inDrain (life 1000 |> withBelt [second 4600])).tt.belt = [second 4600]) ∧
    (Unheld (inDrain (windowCloses false 2)) (closingTicket false) ∧ (closingTicket false).state = .confirming ∧
      (closingTicket false).dest = some (.lane 4) ∧ (inDrain (windowCloses false 2)).tt.belt = [closingTicket false]) ∧
    (Listening (firing .drain .idle none none) ∧ (firing .drain .idle none none).mode = .drain ∧
      (firing .drain .idle none none).tt.belt = [fired] ∧ fired.state = .armed ∧ fired.dest = some (.lane 4) ∧
      ((firing .drain .idle none none).channel 4).armed = some ⟨9, 18, 4426, none⟩ ∧
      (firing .drain .idle none none).ind.underEye = none) :=
  ⟨⟨listening_of (by decide +kernel), by unfold SlotsDistinct; decide +kernel, rfl, rfl, rfl, rfl⟩, ⟨rfl, rfl⟩,
    ⟨unheld_of (by decide +kernel) (by decide +kernel), rfl, rfl⟩,
    ⟨unheld_of (by decide +kernel) (by decide +kernel), rfl, rfl, rfl⟩,
    listening_of (by decide +kernel), rfl, rfl, rfl, rfl, rfl, rfl⟩

/-- PULL of the ticket under the eye leaves none there, and the last ticket of a drain ends it in SETUP. -/
theorem test_pull_underEye : (after (.pull 0 4) (inDrain (underEye false))).ind.underEye = none ∧
    (after (.pull 0 4) (inDrain (underEye false))).mode = .setup := by decide +kernel

/-- A state in DRAIN with a ticket confirming: it meets every invariant, and a step from it answers a next state. -/
def draining : State :=
  { (windowCloses false 2) with mc := { mode := .drain, guard := .closed, cause := .power }, pending := [.encoderPulse] }

theorem witness_StepKeepsDivertersStill : DivertersStill draining ∧ ∃ t, step draining = .next t :=
  ⟨⟨fun h => (by cases h), fun h => (by rcases h with h | h <;> cases h),
    fun h => (by cases h), fun h => (by cases h), fun h => absurd rfl h⟩, _, rfl⟩

theorem witness_StepKeepsCommitments : CommitmentsKept draining ∧ ∃ t, step draining = .next t :=
  ⟨⟨by unfold SlotsDistinct; decide +kernel, by unfold commitmentsAt; decide +kernel⟩, _, rfl⟩

theorem laneSound_of {r : LaneRecord} (h : (r.state ≠ .closed → r.distance ≠ 0) ∧ (r.state = .opened → r.fill < r.capacity) ∧
    (r.state = .full → r.capacity ≤ r.fill) ∧ r.fill ≤ 999) : LaneSound r := ⟨h.1, h.2.1, h.2.2.1, h.2.2.2⟩

theorem witness_StepKeepsLanesSound : LanesSound draining ∧ ∃ t, step draining = .next t :=
  ⟨fun l => laneSound_of (by revert l; decide +kernel), _, rfl⟩

theorem witness_StepKeepsQueuesOnlyWhileOpen : QueuesOnlyWhileOpen draining ∧ ∃ t, step draining = .next t :=
  ⟨⟨by unfold SlotsDistinct; decide +kernel, fun h => (by cases h), by decide +kernel⟩, _, rfl⟩

/-- A step that retires the ticket under the eye answers a next state. -/
theorem witness_StepKeepsUnderEyeLive : UnderEyeLive (underEye true) ∧ (underEye true).ind.underEye = some 0 ∧
    UnderEyeLive (inMode (.hold .run)) ∧
    ∃ t, step { underEye true with pending := [.pull 0 4] } = .next t :=
  ⟨fun k h => ⟨_, List.mem_singleton.2 rfl, by cases h; rfl⟩, rfl, fun k h => (by cases h), _, rfl⟩

theorem witness_StepKeepsRanges : BeltInRange draining ∧ CountersInRange draining ∧ ∃ t, step draining = .next t :=
  ⟨⟨by decide, by decide, by decide, by decide, fun v h => (by cases h), by decide⟩,
    ⟨by decide, by decide +kernel, by decide +kernel, by decide, by decide, by decide, by decide, by decide,
      by decide +kernel, by decide +kernel, by decide, by decide⟩, _, rfl⟩

end Sys2Proof.Tests
end

section
/-! What holds of every command's meaning holds of what any characters make (R174, R175), and what every command of the
table and the part's own course keep, every step keeps. -/

namespace Sys2Proof.Machine

/-- A property of every command's meaning, and of the refusal of characters that make none. -/
structure EveryCommand (P : (State → State × Answer) → Prop) : Prop where
  unknown : P (fun s => s.refuse .unknownCommand)
  readStatus : P cmdReadStatus
  ackAttention : ∀ w, P (cmdAckAttention w)
  setMask : ∀ w, P (cmdSetMask w)
  readReaderCounters : P cmdReadReaderCounters
  setMode : ∀ m, P (cmdSetMode m)
  hold : P cmdHold
  resume : P cmdResume
  softReset : P cmdSoftReset
  writeGeometry : ∀ r, P (cmdWriteGeometry r)
  writeLanes : ∀ a rs, P (cmdWriteLanes a rs)
  writeCarrier : ∀ k, P (cmdWriteCarrier k)
  testStroke : ∀ l d, P (cmdTestStroke l d)
  openLane : ∀ l, P (cmdOpenLane l)
  closeLane : ∀ l, P (cmdCloseLane l)
  setCapacity : ∀ l w, P (cmdSetCapacity l w)
  rackExchanged : ∀ l, P (cmdRackExchanged l)
  readLanes : ∀ a n, P (cmdReadLanes a n)
  writePatterns : ∀ a rs, P (cmdWritePatterns a rs)
  writeForms : ∀ a rs, P (cmdWriteForms a rs)
  writeClasses : ∀ a rs, P (cmdWriteClasses a rs)
  writeRoutes : ∀ a rs, P (cmdWriteRoutes a rs)
  writeSettings : ∀ r, P (cmdWriteSettings r)
  readPatterns : ∀ a n, P (cmdReadPatterns a n)
  readForms : ∀ a n, P (cmdReadForms a n)
  readClasses : ∀ a n, P (cmdReadClasses a n)
  readRoutes : ∀ a n, P (cmdReadRoutes a n)
  readSettings : P cmdReadSettings
  readTicket : ∀ k g, P (cmdReadTicket k g)
  findTickets : ∀ a b c, P (cmdFindTickets a b c)
  redirect : ∀ k g l, P (cmdRedirect k g l)
  pull : ∀ k g, P (cmdPull k g)
  readTallies : P cmdReadTallies
  clearTallies : P cmdClearTallies
  readEndMonitor : P cmdReadEndMonitor

/-- The command codes of R174 and R175. -/
def commandCodes : List Byte :=
  [0x01, 0x02, 0x03, 0x04, 0x08, 0x09, 0x0A, 0x0B, 0x10, 0x11, 0x12, 0x13, 0x18, 0x19, 0x1A, 0x1B, 0x1C,
   0x20, 0x21, 0x22, 0x23, 0x24, 0x28, 0x29, 0x2A, 0x2B, 0x2C, 0x30, 0x31, 0x32, 0x33, 0x34, 0x35, 0x38]

/-- A code that names no command makes none. -/
theorem commandOf_of_notMem (code : Byte) (ps : List Byte) (h : code ∉ commandCodes) :
    commandOf code ps = fun s => s.refuse .unknownCommand := by
  simp only [commandCodes, List.mem_cons, List.not_mem_nil, or_false, not_or] at h
  obtain ⟨⟨n, hn⟩⟩ := code
  interval_cases n
  all_goals first | rfl | simp at h

/-- What holds of every command and of the refusal holds of what any characters make. -/
theorem EveryCommand.commandOf {P : (State → State × Answer) → Prop} (h : EveryCommand P) (code : Byte)
    (ps : List Byte) : P (commandOf code ps) := by
  by_cases hc : code ∈ commandCodes
  swap
  · rw [commandOf_of_notMem code ps hc]; exact h.unknown
  simp only [commandCodes, List.mem_cons, List.not_mem_nil, or_false] at hc
  rcases hc with rfl | rfl | rfl | rfl | rfl | rfl | rfl | rfl | rfl | rfl | rfl | rfl | rfl | rfl | rfl | rfl | rfl | rfl | rfl | rfl | rfl | rfl | rfl | rfl | rfl | rfl | rfl | rfl | rfl | rfl | rfl | rfl | rfl | rfl
  · rcases ps with _ | ⟨_, _⟩
    exacts [h.readStatus, h.unknown]
  · rcases ps with _ | ⟨_, _ | ⟨_, _ | ⟨_, _⟩⟩⟩
    exacts [h.unknown, h.unknown, h.ackAttention _, h.unknown]
  · rcases ps with _ | ⟨_, _ | ⟨_, _ | ⟨_, _⟩⟩⟩
    exacts [h.unknown, h.unknown, h.setMask _, h.unknown]
  · rcases ps with _ | ⟨_, _⟩
    exacts [h.readReaderCounters, h.unknown]
  · rcases ps with _ | ⟨_, _ | ⟨_, _⟩⟩
    exacts [h.unknown, h.setMode _, h.unknown]
  · rcases ps with _ | ⟨_, _⟩
    exacts [h.hold, h.unknown]
  · rcases ps with _ | ⟨_, _⟩
    exacts [h.resume, h.unknown]
  · rcases ps with _ | ⟨_, _⟩
    exacts [h.softReset, h.unknown]
  · have e : Machine.commandOf 0x10 ps = fun s : State => match geometryRecord? ps with
        | some r => cmdWriteGeometry r s
        | none => s.refuse .unknownCommand := rfl
    rw [e]
    cases geometryRecord? ps with
    | none => exact h.unknown
    | some r => exact h.writeGeometry r
  · rcases ps with _ | ⟨_, _ | ⟨_, _⟩⟩
    exacts [h.unknown, h.unknown, h.writeLanes _ _]
  · rcases ps with _ | ⟨_, _ | ⟨_, _⟩⟩
    exacts [h.unknown, h.writeCarrier _, h.unknown]
  · rcases ps with _ | ⟨_, _ | ⟨_, _ | ⟨_, _⟩⟩⟩
    exacts [h.unknown, h.unknown, h.testStroke _ _, h.unknown]
  · rcases ps with _ | ⟨_, _ | ⟨_, _⟩⟩
    exacts [h.unknown, h.openLane _, h.unknown]
  · rcases ps with _ | ⟨_, _ | ⟨_, _⟩⟩
    exacts [h.unknown, h.closeLane _, h.unknown]
  · rcases ps with _ | ⟨_, _ | ⟨_, _ | ⟨_, _ | ⟨_, _⟩⟩⟩⟩
    exacts [h.unknown, h.unknown, h.unknown, h.setCapacity _ _, h.unknown]
  · rcases ps with _ | ⟨_, _ | ⟨_, _⟩⟩
    exacts [h.unknown, h.rackExchanged _, h.unknown]
  · rcases ps with _ | ⟨_, _ | ⟨_, _ | ⟨_, _⟩⟩⟩
    exacts [h.unknown, h.unknown, h.readLanes _ _, h.unknown]
  · rcases ps with _ | ⟨_, _ | ⟨_, _⟩⟩
    exacts [h.unknown, h.unknown, h.writePatterns _ _]
  · rcases ps with _ | ⟨_, _ | ⟨_, _⟩⟩
    exacts [h.unknown, h.unknown, h.writeForms _ _]
  · rcases ps with _ | ⟨_, _ | ⟨_, _⟩⟩
    exacts [h.unknown, h.unknown, h.writeClasses _ _]
  · rcases ps with _ | ⟨_, _ | ⟨_, _⟩⟩
    exacts [h.unknown, h.unknown, h.writeRoutes _ _]
  · rcases ps with _ | ⟨_, _ | ⟨_, _ | ⟨_, _ | ⟨_, _⟩⟩⟩⟩
    exacts [h.unknown, h.unknown, h.unknown, h.writeSettings _, h.unknown]
  · rcases ps with _ | ⟨_, _ | ⟨_, _ | ⟨_, _⟩⟩⟩
    exacts [h.unknown, h.unknown, h.readPatterns _ _, h.unknown]
  · rcases ps with _ | ⟨_, _ | ⟨_, _ | ⟨_, _⟩⟩⟩
    exacts [h.unknown, h.unknown, h.readForms _ _, h.unknown]
  · rcases ps with _ | ⟨_, _ | ⟨_, _ | ⟨_, _⟩⟩⟩
    exacts [h.unknown, h.unknown, h.readClasses _ _, h.unknown]
  · rcases ps with _ | ⟨_, _ | ⟨_, _ | ⟨_, _⟩⟩⟩
    exacts [h.unknown, h.unknown, h.readRoutes _ _, h.unknown]
  · rcases ps with _ | ⟨_, _⟩
    exacts [h.readSettings, h.unknown]
  · rcases ps with _ | ⟨_, _ | ⟨_, _ | ⟨_, _⟩⟩⟩
    exacts [h.unknown, h.unknown, h.readTicket _ _, h.unknown]
  · rcases ps with _ | ⟨_, _ | ⟨_, _ | ⟨_, _ | ⟨_, _⟩⟩⟩⟩
    exacts [h.unknown, h.unknown, h.unknown, h.findTickets _ _ _, h.unknown]
  · rcases ps with _ | ⟨_, _ | ⟨_, _ | ⟨_, _ | ⟨_, _⟩⟩⟩⟩
    exacts [h.unknown, h.unknown, h.unknown, h.redirect _ _ _, h.unknown]
  · rcases ps with _ | ⟨_, _ | ⟨_, _ | ⟨_, _⟩⟩⟩
    exacts [h.unknown, h.unknown, h.pull _ _, h.unknown]
  · rcases ps with _ | ⟨_, _⟩
    exacts [h.readTallies, h.unknown]
  · rcases ps with _ | ⟨_, _⟩
    exacts [h.clearTallies, h.unknown]
  · rcases ps with _ | ⟨_, _⟩
    exacts [h.readEndMonitor, h.unknown]

/-! ### The step -/

/-- What the queue, the free values, the passing of a clock and every command of the table keep, a step keeps. -/
theorem step_keeps {P : State → Prop} (queue : ∀ s rest, P s → P { s with pending := rest })
    (choose : ∀ s : State, P s → P { s with choices := s.choices + 1 }) (clock : ∀ s : State, P s → P (s.elapse 1))
    (meaning : ∀ i s t, P s → exec i s = .next t → P t) {s t : State} (h : P s) (ht : step s = .next t) : P t := by
  unfold step at ht; split at ht
  · unfold State.idle at ht; split at ht
    · rename_i e u _ hn
      refine meaning _ u t ?_ ht
      unfold State.nextOwn at hn
      split at hn <;> cases hn
      · exact h
      · exact choose s h
    · exact Host.Outcome.next.inj ht ▸ clock s h
    · exact Host.Outcome.next.inj ht ▸ clock s h
  · exact meaning _ _ t (queue s _ h) ht

end Sys2Proof.Machine
end

section
/-! The ranges of the Belt Count Unit's items and of the counters (R1, R7, R18, R30, R31, R45, R48, R52, R57, R106, R110,
R148, R171): what each operation on tickets, lanes, channels and drives keeps. -/

namespace Sys2Proof.Machine

theorem satInc_le (top n : Nat) : satInc top n ≤ top := Nat.min_le_right _ _

/-- A table of counters stays in its range when one entry is counted up to the top. -/
theorem tableMod_satInc_le {n top : Nat} {v : Vector Nat n} (hv : ∀ i : Fin n, v.get i ≤ top) (i j : Fin n) :
    (tableMod v i (satInc top)).get j ≤ top := by
  rw [tableMod_get]; split
  · exact satInc_le top _
  · exact hv j

end Sys2Proof.Machine

namespace Sys2Proof.Safety

open Sys2Proof.Machine

/-- Every item of the Belt Count Unit and every counter lies within its range. -/
structure InRange (s : State) : Prop where
  belt : BeltInRange s
  counters : CountersInRange s

namespace InRange

variable {s : State}

/-! ### Single updates -/

theorem raise (h : InRange s) (f : Flag) : InRange (s.raise f) := ⟨{ h.belt with }, { h.counters with }⟩

theorem modTicket (h : InRange s) (k : Slot) (f : Ticket → Ticket) : InRange (s.modTicket k f) :=
  ⟨{ h.belt with }, { h.counters with }⟩

theorem modChannel (h : InRange s) (l : Lane) (f : Channel → Channel) : InRange (s.modChannel l f) :=
  ⟨{ h.belt with }, { h.counters with }⟩

theorem modDrive (h : InRange s) (l : Lane) (f : Drive → Drive) : InRange (s.modDrive l f) :=
  ⟨{ h.belt with }, { h.counters with }⟩

theorem setMode (h : InRange s) (m : Mode) : InRange (s.setMode m) := ⟨{ h.belt with }, { h.counters with }⟩

theorem endStroking (h : InRange s) (l : Lane) (m : Marks → Marks) : InRange (s.endStroking l m) :=
  ⟨{ h.belt with }, { h.counters with }⟩

/-- A lane record changes with its stray and failure counters kept in their ranges. -/
theorem modLane (h : InRange s) (l : Lane) {f : LaneRecord → LaneRecord}
    (hs : (s.lane l).strays ≤ 65535 → (f (s.lane l)).strays ≤ 65535)
    (hf : (s.lane l).failures ≤ 15 → (f (s.lane l)).failures ≤ 15) : InRange (s.modLane l f) := by
  refine ⟨{ h.belt with }, { h.counters with laneStrays := fun m => ?_, failures := fun m => ?_ }⟩
  · rw [State.lane_modLane]; split
    · exact hs (h.counters.laneStrays l)
    · exact h.counters.laneStrays m
  · rw [State.lane_modLane]; split
    · exact hf (h.counters.failures l)
    · exact h.counters.failures m

theorem commit (h : InRange s) (l : Lane) : InRange (s.commit l) := h.modLane l id id

theorem release (h : InRange s) (l : Lane) : InRange (s.release l) := h.modLane l id id

theorem tally (h : InRange s) (o : Option Outlet) (c : TicketOutcome) : InRange (s.tally o c) :=
  ⟨{ h.belt with }, { h.counters with tallies := tableMod_satInc_le h.counters.tallies _ }⟩

theorem countRunOff (h : InRange s) (r : Reason) : InRange (s.countRunOff r) := by
  unfold State.countRunOff; split
  · exact ⟨{ h.belt with }, { h.counters with runOffReasons := tableMod_satInc_le h.counters.runOffReasons _ }⟩
  · exact h

/-- No ticket is under the eye any more, and the blocked length is 0. -/
theorem clearEye (h : InRange s) :
    InRange { s with ind := { s.ind with underEye := none, blockedLength := 0 } } :=
  ⟨{ h.belt with }, { h.counters with blockedLength := Nat.zero_le _ }⟩

/-- Whichever way a choice goes. -/
theorem ite {c : Prop} [Decidable c] {a b : State} (ha : InRange a) (hb : InRange b) : InRange (if c then a else b) := by
  split
  · exact ha
  · exact hb

theorem forLanes (h : InRange s) {f : State → Lane → State} (hf : ∀ u l, InRange u → InRange (f u l)) :
    InRange (s.forLanes f) := State.forLanes_keeps s h hf

/-! ### Tickets -/

theorem storeBounds (h : InRange s) (k : Slot) : InRange (s.storeBounds k) := h.modTicket k _

theorem releaseOf (h : InRange s) (t : Ticket) : InRange (s.releaseOf t) := by
  unfold State.releaseOf; split
  · exact h.release _
  · exact h

theorem disarm (h : InRange s) (l : Lane) : InRange (s.disarm l) := by
  unfold State.disarm; split
  · exact h
  · exact (h.modChannel _ _).modTicket _ _

theorem disarmOf (h : InRange s) (t : Ticket) : InRange (s.disarmOf t) := by
  unfold State.disarmOf; split
  · exact ite (h.disarm _) h
  · exact h

theorem remove (h : InRange s) (t : Ticket) (o : TicketOutcome) : InRange (s.remove t o) := by
  have k := ((h.disarmOf t).releaseOf t).tally t.outlet o
  unfold State.remove
  generalize ((s.disarmOf t).releaseOf t).tally t.outlet o = u at k ⊢
  dsimp only; split
  · exact ⟨{ k.belt with }, { k.counters with blockedLength := Nat.zero_le _ }⟩
  · exact ⟨{ k.belt with }, { k.counters with }⟩

theorem enterSetup (h : InRange s) : InRange s.enterSetup :=
  (h.setMode .setup).forLanes (fun _ _ k => ite ((k.modChannel _ _).modDrive _ _) k)

theorem drainCheck (h : InRange s) : InRange s.drainCheck := ite h.enterSetup h

theorem retire (h : InRange s) (k : Slot) (o : TicketOutcome) : InRange (s.retire k o) := by
  unfold State.retire; split
  · exact h
  · exact (h.remove _ o).drainCheck

theorem flush (h : InRange s) : InRange s.flush := State.flush_keeps s h (fun _ t hu => hu.remove t _)

theorem sendToRunOff (h : InRange s) (k : Slot) (r : Reason) : InRange (s.sendToRunOff k r) := by
  have k' := ((h.modTicket k (fun t => { t with
    state := .runningOff, dest := some .runOff, reason := some r, joined := false, nominal := none
    span := none })).countRunOff r).storeBounds k
  exact ite (k'.retire k _) k'

/-! ### Diverts -/

theorem takeFire (h : InRange s) (l : Lane) (t : Ticket) : InRange (s.takeFire l t) :=
  (h.modChannel _ _).modTicket _ _

theorem arm (h : InRange s) (l : Lane) (t : Ticket) : InRange (s.arm l t) := (h.modChannel _ _).modTicket _ _

theorem beginStroke (h : InRange s) (l : Lane) (t : Ticket) : InRange (s.beginStroke l t) :=
  ((h.takeFire l t).modChannel _ _).modDrive _ _

theorem extendStroke (h : InRange s) (l : Lane) (t : Ticket) : InRange (s.extendStroke l t) := by
  unfold State.extendStroke; split
  · exact (h.takeFire l t).modChannel _ _
  · exact ((h.takeFire l t).modChannel _ _).modDrive _ _

theorem deferFire (h : InRange s) (l : Lane) (t : Ticket) : InRange (s.deferFire l t) :=
  (h.modTicket _ _).modChannel _ _

theorem missFire (h : InRange s) (l : Lane) (t : Ticket) : InRange (s.missFire l t) :=
  ((h.modChannel _ _).releaseOf t).sendToRunOff _ _

theorem fire (h : InRange s) (l : Lane) (late : Bool) : InRange (s.fire l late) := by
  obtain he | ⟨t, u, -, hu, hc⟩ := fire_cases s l late
  · rw [he]; exact h
  have k : InRange u := by
    rw [hu]; split
    · exact h.modTicket _ _
    · exact h
  obtain ⟨-, he⟩ | ⟨-, he⟩ | ⟨-, ⟨-, he⟩ | ⟨-, he⟩ | ⟨-, he⟩⟩ := hc <;> rw [he]
  · exact k
  · exact k.missFire l t
  · exact k.beginStroke l t
  · exact k.extendStroke l t
  · exact k.deferFire l t

theorem attendLane (h : InRange s) (l : Lane) : InRange (s.attendLane l) :=
  attend_keeps (P := InRange) (fun _ k => k.disarm l) (fun _ t k _ _ => k.arm l t) (fun _ k => k.fire l true) _ s h

theorem attendAll (h : InRange s) : InRange s.attendAll := h.forLanes (fun _ l k => k.attendLane l)

theorem recomputeLane (h : InRange s) (l : Lane) : InRange (s.recomputeLane l) := by
  unfold State.recomputeLane; split
  · exact h
  · split
    · exact ite ((((h.modChannel _ _).modTicket _ _).fire l true).attendLane l) ((h.modChannel _ _).modTicket _ _)
    all_goals exact h

theorem recomputeLeads (h : InRange s) : InRange s.recomputeLeads := h.forLanes (fun _ l k => k.recomputeLane l)

theorem judgeDeferred (h : InRange s) (l : Lane) : InRange (s.judgeDeferred l) := by
  have miss : ∀ t, InRange ((s.missFire l t).attendLane l) := fun t => (h.missFire l t).attendLane l
  have begins : ∀ t, InRange ((s.beginStroke l t).attendLane l) := fun t => (h.beginStroke l t).attendLane l
  unfold State.judgeDeferred; split
  · split
    · exact h
    · split
      · exact h
      · exact miss _
      · exact ite (miss _) (begins _)
      · exact ite (miss _) (begins _)
  all_goals exact h

theorem recoverLane (h : InRange s) (l : Lane) : InRange (s.recoverLane l) := by
  have k : InRange (s.driveRecover l) := h.modDrive _ _
  exact ite (k.judgeDeferred l) k

theorem strokeEnds (h : InRange s) (l : Lane) : InRange (s.strokeEnds l) := by
  have k : InRange ((s.closeChannel l).endStroking l id) := (h.modChannel _ _).endStroking l id
  unfold State.strokeEnds; dsimp only; split
  · exact k.recoverLane l
  · exact k.modDrive _ _
  · exact k
  · exact k

theorem capStroke (h : InRange s) (l : Lane) : InRange (s.capStroke l) := by
  unfold State.capStroke; split
  · exact ((h.endStroking _ _).modChannel _ _).recoverLane l
  · exact h.recoverLane l
  · exact h.recoverLane l

theorem abortLane (h : InRange s) (l : Lane) : InRange (s.abortLane l) :=
  ite (((h.endStroking _ _).modChannel _ _).recoverLane l) h

theorem endTestStrokes (h : InRange s) : InRange s.endTestStrokes :=
  h.forLanes (fun _ _ k => ite (k.modDrive _ _) k)

theorem enterHold (h : InRange s) (m : HeldFrom) : InRange (s.enterHold m) :=
  ((h.setMode _).raise _).forLanes (fun _ l k => k.abortLane l)

/-! ### Resolution and lane states -/

theorem giveLane (h : InRange s) (k : Slot) (c : WareClass) (l : Lane) (r : Reason) (n : Nat) :
    InRange (s.giveLane k c l r n) := (h.commit l).modTicket _ _

theorem writeWalk (h : InRange s) (k : Slot) (c : WareClass) (w : WalkEnd) : InRange (s.writeWalk k c w) := by
  unfold State.writeWalk; split
  · exact h.giveLane _ _ _ _ _
  · exact (h.modTicket _ _).sendToRunOff _ _

theorem split (h : InRange s) (k : Slot) : InRange (s.split k) := by
  unfold State.split; split
  · exact h
  · exact ite (((h.disarmOf _).releaseOf _).sendToRunOff _ _) h

theorem judgePair (h : InRange s) (passing : List Slot) (x y : Slot) : InRange (s.judgePair passing x y) := by
  have joined : ∀ b, InRange (s.writeJoined y b) := fun b => h.modTicket _ _
  unfold State.judgePair; split
  · exact ite h (ite (ite (joined true) (((joined false).split x).split y)) (joined false))
  all_goals exact h

theorem crowd (h : InRange s) (k : Slot) (passing : List Slot) : InRange (s.crowd k passing) := by
  unfold State.crowd; dsimp only
  split <;> split
  · exact (h.judgePair _ _ _).judgePair _ _ _
  · exact h.judgePair _ _ _
  · exact h.judgePair _ _ _
  · exact h

theorem streak (h : InRange s) (c : Cause) : InRange (s.streak c) := by
  have k : ∀ n, n ≤ 255 → InRange { s with ind := { s.ind with noReadStreak := n } } := fun n hn =>
    ⟨{ h.belt with }, { h.counters with streak := hn }⟩
  unfold State.streak; split
  · exact k 0 (Nat.zero_le _)
  · exact ite ((k _ (satInc_le _ _)).raise _) (k _ (satInc_le _ _))

theorem resolve (h : InRange s) (k : Slot) (c : Cause) : InRange (s.resolve k c) := by
  unfold State.resolve; split
  · exact h
  · exact ite ((((h.streak c).modTicket _ _).writeWalk _ _ _).crowd _ _).attendAll h

theorem reresolve (h : InRange s) (l : Lane) (k : Slot) (passing : List Slot) : InRange (s.reresolve l k passing) := by
  unfold State.reresolve; split
  · exact h
  · exact ite ((((h.disarmOf _).releaseOf _).writeWalk _ _ _).crowd _ _) h

theorem reresolutionPass (h : InRange s) (l : Lane) : InRange (s.reresolutionPass l) :=
  (passOver_keeps (P := InRange) (fun _ k ks u => u.reresolve l k ks) _ s h).attendAll

theorem changeLaneState (h : InRange s) (l : Lane) (new : LaneState) : InRange (s.changeLaneState l new) := by
  have k : InRange (s.modLane l (fun r => { r with state := new })) := h.modLane l id id
  unfold State.changeLaneState
  have passed : ∀ {c : Prop} [Decidable c] {u : State}, InRange u → InRange (if c then u.reresolutionPass l else u) :=
    fun hu => ite (hu.reresolutionPass l) hu
  cases new with
  | closed => exact passed k
  | opened => exact passed k
  | full => exact passed (ite k (k.raise _))
  | faulted => exact passed (ite k (k.raise _))

theorem addFill (h : InRange s) (l : Lane) : InRange (s.addFill l) := by
  have k : InRange (s.modLane l (fun r => { r with fill := satInc 999 r.fill })) := h.modLane l id id
  exact ite (k.changeLaneState l _) k

theorem countFailure (h : InRange s) (l : Lane) : InRange (s.countFailure l) := by
  have k : InRange (s.modLane l (fun r => { r with failures := satInc 15 r.failures })) :=
    h.modLane l id (fun _ => satInc_le _ _)
  exact ite (k.changeLaneState l _) k

theorem expireEnd (h : InRange s) (k : Slot) : InRange (s.expireEnd k) := by
  unfold State.expireEnd; split
  · exact h
  · split
    · exact (h.retire k _).addFill _
    · exact h.retire k _
    · exact h.retire k _
    all_goals exact h

theorem closeConfirm (h : InRange s) (k : Slot) : InRange (s.closeConfirm k) := by
  unfold State.closeConfirm; split
  · exact h
  · rename_i t _
    split
    · exact h
    · rename_i l _
      have doubted : InRange ((s.releaseOf t).modTicket k (fun t => { t with state := .doubt, closeCount := none })) :=
        (h.releaseOf t).modTicket _ _
      have bounded := (ite (c := t.joined = true) doubted (doubted.countFailure l)).storeBounds k
      exact ite (bounded.expireEnd k) bounded

end InRange
end Sys2Proof.Safety
end

section
/-! The ranges through the events of the eyes, the reader line, the belt, the resets and the timers. -/

namespace Sys2Proof.Safety.InRange

open Sys2Proof.Machine

variable {s : State}

/-! ### Eyes and the end of the belt -/

/-- The eye of the Induction Unit changes, the count of its ticket not. -/
theorem setEye (h : InRange s) (e : Eye) : InRange { s with ind := { s.ind with eye := e } } :=
  ⟨{ h.belt with }, { h.counters with }⟩

theorem setEndEye (h : InRange s) (e : Eye) : InRange { s with em := { s.em with eye := e } } :=
  ⟨{ h.belt with }, { h.counters with }⟩

theorem sightLane (h : InRange s) (l : Lane) : InRange (s.sightLane l) := by
  unfold State.sightLane; split
  · exact (h.modLane l (fun _ => satInc_le _ _) id).addFill l
  · exact ((h.retire _ _).modLane l id (fun _ => Nat.zero_le _)).addFill l

theorem laneEyeLeads (h : InRange s) (l : Lane) : InRange (s.laneEyeLeads l) := by
  unfold State.laneEyeLeads; split
  · exact h
  all_goals exact h.sightLane l

theorem onConfirmClose (h : InRange s) (k : Slot) : InRange (s.onConfirmClose k) := by
  unfold State.onConfirmClose; split
  · exact h
  · exact ite (h.closeConfirm k) h

theorem sightEnd (h : InRange s) : InRange s.sightEnd := by
  unfold State.sightEnd; split
  · exact h.retire _ _
  · have k : InRange { s with em := { s.em with strays := satInc counterTop s.em.strays } } :=
      ⟨{ h.belt with }, { h.counters with endStrays := satInc_le _ _ }⟩
    exact k.raise _

theorem endEyeLeads (h : InRange s) : InRange s.endEyeLeads := by
  have k := h.setEndEye .blocked
  unfold State.endEyeLeads; split
  · exact h
  · dsimp only; split
    · exact k
    all_goals exact k.sightEnd

theorem onEndWindow (h : InRange s) (k : Slot) : InRange (s.onEndWindow k) := ite (h.expireEnd k) h

/-! ### The reader line -/

theorem readerError (h : InRange s) : InRange s.readerError := by
  have k : InRange { s with rli := { s.rli with errors := satInc counterTop s.rli.errors } } :=
    ⟨{ h.belt with }, { h.counters with readerErrors := satInc_le _ _ }⟩
  exact k.raise _

/-- The trigger FIFO holds up to 4 tags (R48). -/
theorem offerTrigger (h : InRange s) (tag : Tag) : InRange (s.offerTrigger tag) := by
  unfold State.offerTrigger; split
  · rename_i hl
    exact ⟨{ h.belt with }, { h.counters with triggers := by simpa using hl }⟩
  · exact h.readerError

theorem setAssembly (h : InRange s) (a : Assembly) : InRange (s.setAssembly a) :=
  ⟨{ h.belt with }, { h.counters with }⟩

theorem abandonReport (h : InRange s) : InRange s.abandonReport := (h.setAssembly _).readerError

theorem report (h : InRange s) (tag : Tag) (p f st : Byte) : InRange (s.report tag p f st) := by
  have stray : InRange { s with rli := { s.rli with strays := satInc counterTop s.rli.strays } } :=
    ⟨{ h.belt with }, { h.counters with strayReports := satInc_le _ _ }⟩
  unfold State.report; dsimp only; split
  · exact stray
  · exact ite stray (ite (ite ((h.modTicket _ _).modTicket _ _) ((h.modTicket _ _).resolve _ _)) (h.modTicket _ _))

theorem readerMarked (h : InRange s) (v : Byte) : InRange (s.readerMarked v) := by
  unfold State.readerMarked
  cases s.rli.assembly with
  | waitHeader => exact ite (h.setAssembly _) h
  | waitPattern _ => exact ite (h.abandonReport.setAssembly _) h.abandonReport
  | waitForm _ _ => exact ite (h.abandonReport.setAssembly _) h.abandonReport
  | waitStatus _ _ _ => exact ite (h.abandonReport.setAssembly _) h.abandonReport

theorem readerData (h : InRange s) (v : Byte) : InRange (s.readerData v) := by
  unfold State.readerData; split
  · exact h
  · exact h.setAssembly _
  · exact h.setAssembly _
  · exact (h.setAssembly _).report _ _ _ _

theorem readerReceives (h : InRange s) (c : LineChar) : InRange (s.readerReceives c) :=
  ite (ite (h.readerMarked _) (h.readerData _)) (h.setAssembly _).readerError

theorem beginTrigger (h : InRange s) : InRange s.beginTrigger :=
  ite ⟨{ h.belt with }, { h.counters with }⟩ h

theorem endTrigger (h : InRange s) : InRange s.endTrigger :=
  ⟨{ h.belt with }, { h.counters with
    triggers := (List.length_tail ▸ Nat.sub_le _ _ : s.rli.fifo.tail.length ≤ s.rli.fifo.length).trans
      h.counters.triggers }⟩

/-! ### The induction eye -/

theorem markOverlength (h : InRange s) : InRange s.markOverlength := by
  unfold State.markOverlength; split
  · exact h
  · exact (h.modTicket _ _).raise _

theorem endUnderEye (h : InRange s) (n : Nat) : InRange (s.endUnderEye n) := by
  unfold State.endUnderEye; split
  · exact h
  · rename_i k _
    have cleared := h.clearEye.modTicket k (fun t => { t with length := some n })
    dsimp only; split
    · exact cleared
    · exact ite (cleared.resolve _ _) (ite ((cleared.modTicket _ _).resolve _ _) (cleared.modTicket _ _))

theorem inductionTrails (h : InRange s) : InRange s.inductionTrails := by
  have k := h.setEye .clear
  unfold State.inductionTrails; split
  · exact h
  · dsimp only; split
    · exact k
    all_goals exact k.endUnderEye _

theorem reachHoldLimit (h : InRange s) : InRange s.reachHoldLimit := ite (h.endUnderEye _) h

theorem allocate (h : InRange s) (k : Slot) (tag : Tag) : InRange (s.allocate k tag) := by
  have joined : InRange { s with tt := { s.tt with
      generations := tableMod s.tt.generations k (fun _ => s.tt.generations.get k + 1)
      belt := s.tt.belt ++ [newTicket k (s.tt.generations.get k + 1) tag s.now] } } :=
    ⟨{ h.belt with }, { h.counters with }⟩
  exact ite (joined.raise _) joined

theorem refusePiece (h : InRange s) : InRange s.refusePiece := by
  have k : InRange { s with
      tt := { s.tt with untracked := satInc counterTop s.tt.untracked }
      ind := { s.ind with underEye := none, blockedLength := 0 } } :=
    ⟨{ h.belt with }, { h.counters with untracked := satInc_le _ _, blockedLength := Nat.zero_le _ }⟩
  exact k.raise _

theorem openTicket (h : InRange s) (k : Slot) (tag : Tag) : InRange (s.openTicket k tag) := by
  have a := h.allocate k tag
  have under : InRange { s.allocate k tag with
      ind := { (s.allocate k tag).ind with underEye := some k, blockedLength := 0 } } :=
    ⟨{ a.belt with }, { a.counters with blockedLength := Nat.zero_le _ }⟩
  exact under.offerTrigger tag

theorem induct (h : InRange s) : InRange s.induct := by
  unfold State.induct; split
  · exact h.refusePiece
  · have advanced : InRange { s with ind := { s.ind with nextTag := s.ind.nextTag + 1 } } :=
      ⟨{ h.belt with }, { h.counters with }⟩
    have opens : ∀ {u : State}, InRange u → InRange (match u.mode, u.freeSlot? with
        | .setup, _ => u
        | _, none => u
        | _, some k => u.openTicket k s.ind.nextTag) := by
      intro u k; split
      · exact k
      · exact k
      · exact k.openTicket _ _
    dsimp only
    generalize ({ s with ind := { s.ind with nextTag := s.ind.nextTag + 1 } } : State) = u at advanced ⊢
    cases u.pendingWithTag? s.ind.nextTag with
    | none => exact opens advanced
    | some t => exact opens (advanced.resolve _ _)

theorem inductionLeads (h : InRange s) : InRange s.inductionLeads := by
  have k := h.setEye .blocked
  unfold State.inductionLeads; split
  · exact h
  · dsimp only; split
    · exact k
    all_goals exact k.induct

theorem expireReadWindow (h : InRange s) (k : Slot) : InRange (s.expireReadWindow k) := by
  unfold State.expireReadWindow; split
  · exact h
  · exact ite (h.resolve _ _) h

/-! ### The belt -/

/-- P8 takes the block timer's value, at least 1 (R7). -/
theorem takeCapture (h : InRange s) : InRange s.takeCapture := by
  unfold State.takeCapture; split
  · exact h
  · rename_i v hv
    have k : InRange { s with bcu := { s.bcu with p8 := max 1 v, capture := none } } :=
      ⟨{ h.belt with
          p8Low := Nat.le_max_left _ _
          p8High := Nat.max_le.mpr ⟨by decide, h.belt.captured v hv⟩
          captured := fun _ hw => nomatch hw }, { h.counters with }⟩
    exact k.recomputeLeads

/-- The Belt Count Unit stands STOPPED with its block discarded (R8, R9). -/
theorem stopped (h : InRange s) : InRange { s with bcu := { s.bcu with
    motion := .stopped, p8 := 65535, blockCount := 0, blockTimer := 0, stopTimer := 0, capture := none } } :=
  ⟨{ h.belt with
      p8Low := (by decide : 1 ≤ 65535)
      p8High := Nat.le_refl _
      block := Nat.zero_le _
      timer := Nat.zero_le _
      captured := fun _ hw => nomatch hw }, { h.counters with }⟩

theorem stopBelt (h : InRange s) : InRange s.stopBelt := (h.takeCapture.stopped.raise _).recomputeLeads

theorem onFireDue (h : InRange s) (l : Lane) : InRange (s.onFireDue l) := ite ((h.fire l false).attendLane l) h

theorem onStrokeEnd (h : InRange s) (l : Lane) : InRange (s.onStrokeEnd l) := ite (h.strokeEnds l) h

theorem takeReach (h : InRange s) (r : CountReach) : InRange (s.takeReach r) := by
  cases r with
  | capture => exact h.takeCapture
  | holdLimit => exact h.reachHoldLimit
  | readWindow k => exact h.expireReadWindow k
  | fire l => exact h.onFireDue l
  | strokeEnd l => exact h.onStrokeEnd l
  | confirmClose k => exact h.onConfirmClose k
  | endWindow k => exact h.onEndWindow k

/-- The counter of free values is no counter of the part's. -/
theorem choose (h : InRange s) : InRange { s with choices := s.choices + 1 } := ⟨{ h.belt with }, { h.counters with }⟩

theorem settle (h : InRange s) : InRange s.settle :=
  settle_keeps (P := InRange) (fun _ r k _ => k.takeReach r) (fun _ k => k.choose) s h

/-- A count event keeps the block count below 8, and hands on a block timer that lies within its range (R7). -/
theorem beltCountEvent (h : InRange s) : InRange { s with bcu := s.bcu.countEvent } := by
  refine ⟨?_, { h.counters with }⟩
  have b := h.belt
  unfold BeltCountUnit.countEvent; dsimp only
  split
  · exact { b with block := Nat.zero_le _, timer := Nat.zero_le _ }
  · split
    · exact { b with block := by dsimp only; omega }
    · exact { b with
        block := Nat.zero_le _
        timer := Nat.zero_le _
        captured := fun v hv => Option.some.inj hv ▸ b.timer }

theorem countEvent (h : InRange s) : InRange s.countEvent := by
  have k := h.beltCountEvent
  have grown : InRange { s with
      bcu := s.bcu.countEvent, ind := { s.ind with blockedLength := satInc 1023 s.ind.blockedLength } } :=
    ⟨{ k.belt with }, { k.counters with blockedLength := satInc_le _ _ }⟩
  exact ite grown.markOverlength k

/-- The remainder counts up to the pulses per belt count and begins again at 0 (R1). -/
theorem pulse (h : InRange s) : InRange s.pulse := by
  unfold State.pulse; split
  · rename_i hr
    exact ⟨{ h.belt with remainder := hr }, { h.counters with }⟩
  · have k : InRange { s with bcu := { s.bcu with remainder := 0 } } :=
      ⟨{ h.belt with remainder := Nat.two_pow_pos _ }, { h.counters with }⟩
    exact k.countEvent

/-! ### Resets -/

theorem clearFailures (h : InRange s) : InRange s.clearFailures :=
  h.forLanes (fun _ l k => k.modLane l id (fun _ => Nat.zero_le _))

theorem softReset (h : InRange s) : InRange s.softReset := by
  have k := h.flush.clearFailures.stopped
  unfold State.softReset
  generalize s.flush.clearFailures = u at k ⊢
  exact ⟨{ k.belt with }, { k.counters with
    blockedLength := Nat.zero_le _
    streak := Nat.zero_le _
    triggers := by
      dsimp only; split
      · exact (List.length_take_le 1 _).trans (by decide)
      · exact Nat.zero_le _ }⟩

/-! ### Replies, timers and time -/

theorem setFrame (h : InRange s) (f : FrameState) (b : Bool) : InRange (s.setFrame f b) :=
  ⟨{ h.belt with }, { h.counters with }⟩

theorem endReply (h : InRange s) : InRange s.endReply := by
  unfold State.endReply; split
  · exact h
  · have k : InRange { s with sli := { s.sli with sending := none, sendTimer := 0 } } :=
      ⟨{ h.belt with }, { h.counters with }⟩
    exact ite k.softReset k

theorem leavePull (h : InRange s) (l : Lane) : InRange (s.leavePull l) := ite (h.recoverLane l) (h.modDrive l _)

theorem takeTestEnd (h : InRange s) (l : Lane) : InRange (s.takeTestEnd l) := by
  unfold State.takeTestEnd; split
  · exact h.recoverLane l
  · exact h.modDrive l _
  · exact h
  · exact h

theorem takeTimer (h : InRange s) (t : OwnTimer) : InRange (s.takeTimer t) := by
  cases t with
  | stop => exact h.stopBelt
  | triggerSent => exact h.endTrigger
  | readerGap => exact h.abandonReport
  | pull l => exact h.leavePull l
  | cap l => exact h.capStroke l
  | recovery l => exact (h.modDrive l _).judgeDeferred l
  | testEnd l => exact h.takeTestEnd l
  | frameGap => exact h.setFrame _ _
  | quiet => exact ⟨{ h.belt with }, { h.counters with }⟩
  | replySent => exact h.endReply

theorem onTimer (h : InRange s) (t : OwnTimer) : InRange (s.onTimer t) := ite (h.takeTimer t) h

theorem takeOwn (h : InRange s) (e : OwnEvent) : InRange (s.takeOwn e) := by
  cases e with
  | reach r => exact h.takeReach r
  | triggerSend => exact h.beginTrigger
  | timer t => exact h.onTimer t

/-- The block timer saturates, and no other item in range is a time (section 1.3). -/
theorem elapse (h : InRange s) (n : Nat) : InRange (s.elapse n) := by
  unfold State.elapse; split
  · exact ⟨{ h.belt with }, { h.counters with }⟩
  · refine forLanes ?_ (fun _ l k => k.modDrive l _)
    refine ⟨?_, { h.counters with }⟩
    have b := h.belt
    unfold BeltCountUnit.elapse; split
    · exact { b with }
    · exact { b with timer := Nat.min_le_right _ _ }

theorem runOn (h : InRange s) (n : Nat) : InRange (s.runOn n) :=
  State.passClocks_keeps (P := InRange) (fun _ n k => k.elapse n) (fun _ e k => k.takeOwn e) (fun _ k => k.choose) _ n s h

theorem awaitTimer (h : InRange s) (t : OwnTimer) : InRange (s.awaitTimer t) := by
  unfold State.awaitTimer; split
  · exact h
  · exact (h.runOn _).onTimer t

theorem softResetComes (h : InRange s) : InRange s.softResetComes := by
  unfold State.softResetComes; split
  · exact ite ((h.awaitTimer _).awaitTimer _) h
  · exact ite (h.awaitTimer _) h
  · exact h

end Sys2Proof.Safety.InRange
end

section
/-! The ranges through the commands of the supervisory line, character by character and as rows, and through a step. -/

namespace Sys2Proof.Safety.InRange

open Sys2Proof.Machine

variable {s : State}

/-- Whichever way a test of a command goes. -/
theorem iteAnswer {c : Prop} [Decidable c] {a b : State × Answer} (ha : InRange a.1) (hb : InRange b.1) :
    InRange (if c then a else b).1 := by
  split
  · exact ha
  · exact hb

/-- An answer leaves the state to which it is given. -/
theorem modeAnswer (h : InRange s) (st : Status) : InRange (s.modeAnswer st).1 := h

theorem laneAnswer (h : InRange s) (st : Status) (l : Lane) : InRange (s.laneAnswer st l).1 := h

/-! ### Catalogue -/

theorem setCatalogue (h : InRange s) (c : Catalogue) : InRange { s with cat := c } :=
  ⟨{ h.belt with }, { h.counters with }⟩

theorem blockWrite {α β : Type} {n : Nat} (h : InRange s) (first : Byte) (rs : List α) (f : α → Option β)
    (entry : β → α → Bool) (v : Vector β n) {store : Vector β n → State} (hs : ∀ v, InRange (store v)) :
    InRange (s.blockWrite first rs f entry v store).1 := by
  refine iteAnswer h (iteAnswer h ?_)
  split
  · exact h
  · exact hs _

theorem blockRead {α : Type} {n : Nat} (h : InRange s) (first count : Byte) (v : Vector α n) (chars : α → List Byte) :
    InRange (s.blockRead first count v chars).1 := iteAnswer h (iteAnswer h h)

theorem writeSettings (h : InRange s) (r : SettingsWrite) : InRange (cmdWriteSettings r s).1 := by
  unfold cmdWriteSettings; split
  · exact h
  · exact h
  · exact h.setCatalogue _

/-! ### Lanes -/

theorem configureFrom (h : InRange s) (n : Nat) (cs : List LaneConfig) : InRange (s.configureFrom n cs) := by
  induction cs generalizing s n with
  | nil => exact h
  | cons c cs ih =>
    unfold State.configureFrom; split
    · exact ih (h.modLane _ id id) _
    · exact ih h _

theorem writeLanes (h : InRange s) (first : Byte) (rs : List LaneWrite) : InRange (cmdWriteLanes first rs s).1 := by
  refine iteAnswer h (iteAnswer h (iteAnswer h ?_))
  split
  · exact h
  · exact h.configureFrom _ _

/-- A lane command is refused, or does what it does at its lane. -/
theorem onLane (h : InRange s) (b : Byte) {f : Lane → State × Answer} (hf : ∀ l, InRange (f l).1) :
    InRange (s.onLane b f).1 := by
  unfold State.onLane; split
  · exact hf _
  · exact h

theorem openLane (h : InRange s) (b : Byte) : InRange (cmdOpenLane b s).1 := by
  refine h.onLane b (fun l => iteAnswer h ?_)
  have k : InRange (s.openLane l) := (h.modLane l id (fun _ => Nat.zero_le _)).changeLaneState l _
  split
  · exact k.laneAnswer _ _
  · exact k.laneAnswer _ _
  · exact h.laneAnswer _ _
  · exact h.laneAnswer _ _

theorem closeLane (h : InRange s) (b : Byte) : InRange (cmdCloseLane b s).1 :=
  h.onLane b (fun l => (h.changeLaneState l .closed).laneAnswer _ _)

theorem setCapacity (h : InRange s) (b : Byte) (w : Word) : InRange (cmdSetCapacity b w s).1 := by
  refine h.onLane b (fun l => ?_)
  have k := h.modLane l (f := fun r => { r with capacity := min w.toNat 999 }) id id
  show InRange (s.setCapacity l (min w.toNat 999))
  unfold State.setCapacity; dsimp only; split
  · exact ite (k.changeLaneState l _) k
  · exact ite (k.changeLaneState l _) k
  · exact k
  · exact k

theorem rackExchanged (h : InRange s) (b : Byte) : InRange (cmdRackExchanged b s).1 := by
  refine h.onLane b (fun l => ?_)
  have k := h.modLane l (f := fun r => { r with fill := 0 }) id id
  exact ite (k.changeLaneState l _) k

theorem readLanes (h : InRange s) (first count : Byte) : InRange (cmdReadLanes first count s).1 :=
  iteAnswer h (iteAnswer h h)

/-! ### Modes -/

theorem setGuard (h : InRange s) (g : Guard) : InRange { s with mc := { s.mc with guard := g } } :=
  ⟨{ h.belt with }, { h.counters with }⟩

theorem guardOpens (h : InRange s) : InRange s.guardOpens := by
  have k := h.setGuard .opened
  unfold State.guardOpens; split
  · exact h
  · dsimp only; split
    · exact k.enterHold _
    · exact k.enterHold _
    · exact k
    · exact k.endTestStrokes

theorem hold (h : InRange s) : InRange (cmdHold s).1 := by
  unfold cmdHold; split
  · exact h.modeAnswer _
  · exact (h.enterHold .run).modeAnswer _
  · exact (h.enterHold .drain).modeAnswer _
  · exact h.modeAnswer _

theorem resume (h : InRange s) : InRange (cmdResume s).1 := by
  unfold cmdResume; split
  · exact (h.settle.setMode _).drainCheck.modeAnswer _
  all_goals exact h.modeAnswer _

theorem enterRun (h : InRange s) : InRange s.enterRun.1 := by
  unfold State.enterRun; split
  · exact h
  · split
    · exact h.modeAnswer _
    · exact (h.endTestStrokes.setMode .run).modeAnswer _

theorem modeCommand (h : InRange s) (m : Byte) : InRange (cmdSetMode m s).1 := by
  unfold cmdSetMode; split
  · exact h.modeAnswer _
  · exact h.modeAnswer _
  · exact h.modeAnswer _
  · exact h.flush.enterSetup.modeAnswer _
  · exact h.enterRun
  · exact h.modeAnswer _
  · exact (h.setMode .run).modeAnswer _
  · exact h.modeAnswer _
  · exact h.modeAnswer _
  · exact (h.setMode .drain).drainCheck.modeAnswer _
  all_goals exact h.modeAnswer _

/-! ### Settings -/

/-- The new setting begins with the prescale remainder 0 (R2). -/
theorem applyGeometry (h : InRange s) (g : Geometry) : InRange (s.applyGeometry g) := by
  have k : InRange { s with geo := g, bcu := { s.bcu with remainder := 0 } } :=
    ⟨{ h.belt with remainder := Nat.two_pow_pos _ }, { h.counters with }⟩
  exact ite k.stopBelt k

theorem writeGeometry (h : InRange s) (r : GeometryRecord) : InRange (cmdWriteGeometry r s).1 :=
  iteAnswer h (iteAnswer h (h.applyGeometry _))

theorem writeCarrier (h : InRange s) (k : Byte) : InRange (cmdWriteCarrier k s).1 :=
  iteAnswer h (iteAnswer h ⟨{ h.belt with }, { h.counters with }⟩)

theorem testStroke (h : InRange s) (l d : Byte) : InRange (cmdTestStroke l d s).1 := by
  refine iteAnswer h ?_
  split
  · exact h
  · exact iteAnswer h (iteAnswer h (h.modDrive _ _))

theorem ackAttention (h : InRange s) (w : Word) : InRange (cmdAckAttention w s).1 :=
  ⟨{ h.belt with }, { h.counters with }⟩

theorem setMask (h : InRange s) (w : Word) : InRange (cmdSetMask w s).1 := ⟨{ h.belt with }, { h.counters with }⟩

/-! ### Tickets -/

theorem readTicket (h : InRange s) (a b : Byte) : InRange (cmdReadTicket a b s).1 := by
  refine iteAnswer h ?_
  split <;> exact h

theorem findTickets (h : InRange s) (a b c : Byte) : InRange (cmdFindTickets a b c s).1 := by
  refine iteAnswer h ?_
  split <;> exact h

theorem clearTallies (h : InRange s) : InRange (cmdClearTallies s).1 := by
  refine forLanes ?_ (fun _ l k => k.modLane l (fun _ => Nat.zero_le _) id)
  exact ⟨{ h.belt with }, { h.counters with
    untracked := Nat.zero_le _
    tallies := fun i => by simp [Vector.get_eq_getElem]
    runOffReasons := fun i => by simp [Vector.get_eq_getElem]
    readerErrors := Nat.zero_le _
    strayReports := Nat.zero_le _
    endStrays := Nat.zero_le _
    lineErrors := Nat.zero_le _ }⟩

theorem redirectToRunOff (h : InRange s) (t : Ticket) : InRange (s.redirectToRunOff t) := by
  unfold State.redirectToRunOff; split
  · exact h.sendToRunOff _ _
  · exact h.modTicket _ _

theorem applyRedirect (h : InRange s) (t : Ticket) (d : Dest) : InRange (s.applyRedirect t d) := by
  have k := (((h.disarmOf t).releaseOf t).modTicket t.slot (fun t =>
    { t with hops := 0, marks := {}, fireCount := none }))
  unfold State.applyRedirect
  cases d with
  | runOff => exact ((k.redirectToRunOff t).crowd _ _).attendAll
  | lane l => exact ((k.giveLane _ _ _ _ _).crowd _ _).attendAll

theorem redirect (h : InRange s) (a b c : Byte) : InRange (cmdRedirect a b c s).1 := by
  refine iteAnswer h (iteAnswer h ?_)
  split
  · exact h
  · exact h
  · rename_i d t _ _
    refine iteAnswer h (iteAnswer h (iteAnswer h ?_))
    dsimp only
    exact h.applyRedirect t d

theorem pullTicket (h : InRange s) (t : Ticket) : InRange (s.pullTicket t) := by
  unfold State.pullTicket; split
  · exact (h.retire _ _).attendLane _
  · exact h.retire _ _

theorem pull (h : InRange s) (a b : Byte) : InRange (cmdPull a b s).1 := by
  refine iteAnswer h (iteAnswer h ?_)
  split
  · exact h
  · rename_i t _
    exact iteAnswer h (h.pullTicket t)

/-! ### Frames -/

/-- A change of the supervisory line that counts no error. -/
theorem setLine (h : InRange s) {l : SupervisoryLine} (hl : l.lineErrors = s.sli.lineErrors) :
    InRange { s with sli := l } := ⟨{ h.belt with }, { h.counters with lineErrors := hl ▸ h.counters.lineErrors }⟩

theorem replyDue (h : InRange s) (a : Answer) : InRange (s.replyDue a) := ite h (h.setLine rfl)

theorem cancelReply (h : InRange s) : InRange s.cancelReply := by
  unfold State.cancelReply; split
  · exact h
  · exact ite h.softReset (h.setLine rfl)

theorem frameDone (h : InRange s) : InRange s.frameDone := h.setLine rfl

theorem takeCommand (h : InRange s) {f : State → State × Answer} (hf : ∀ {u}, InRange u → InRange (f u).1) :
    InRange (s.takeCommand f) := (hf h.frameDone).replyDue _

theorem takeBroadcast (h : InRange s) {f : State → State × Answer} (hf : ∀ {u}, InRange u → InRange (f u).1) :
    InRange (s.takeBroadcast f) := hf h.frameDone

/-- Every command keeps the ranges. -/
theorem everyCommand : EveryCommand (fun f => ∀ {u : State}, InRange u → InRange (f u).1) where
  unknown h := h
  readStatus h := h
  ackAttention w _ h := h.ackAttention w
  setMask w _ h := h.setMask w
  readReaderCounters h := h
  setMode m _ h := h.modeCommand m
  hold h := h.hold
  resume h := h.resume
  softReset h := h
  writeGeometry r _ h := h.writeGeometry r
  writeLanes a rs _ h := h.writeLanes a rs
  writeCarrier k _ h := h.writeCarrier k
  testStroke l d _ h := h.testStroke l d
  openLane l _ h := h.openLane l
  closeLane l _ h := h.closeLane l
  setCapacity l w _ h := h.setCapacity l w
  rackExchanged l _ h := h.rackExchanged l
  readLanes a n _ h := h.readLanes a n
  writePatterns _ _ _ h := h.blockWrite _ _ _ _ _ (fun _ => h.setCatalogue _)
  writeForms _ _ _ h := h.blockWrite _ _ _ _ _ (fun _ => h.setCatalogue _)
  writeClasses _ _ _ h := h.blockWrite _ _ _ _ _ (fun _ => h.setCatalogue _)
  writeRoutes _ _ _ h := h.blockWrite _ _ _ _ _ (fun _ => h.setCatalogue _)
  writeSettings r _ h := h.writeSettings r
  readPatterns _ _ _ h := h.blockRead _ _ _ _
  readForms _ _ _ h := h.blockRead _ _ _ _
  readClasses _ _ _ h := h.blockRead _ _ _ _
  readRoutes _ _ _ h := h.blockRead _ _ _ _
  readSettings h := h
  readTicket a b _ h := h.readTicket a b
  findTickets a b c _ h := h.findTickets a b c
  redirect a b c _ h := h.redirect a b c
  pull a b _ h := h.pull a b
  readTallies h := h
  clearTallies h := h.clearTallies
  readEndMonitor h := h

/-! ### Characters -/

theorem select (h : InRange s) (v : Byte) : InRange (s.select v) :=
  ite (h.setFrame _ _) (ite (h.setFrame _ _) (h.setFrame _ _))

theorem lineMarked (h : InRange s) (v : Byte) : InRange (s.lineMarked v) := h.cancelReply.select v

theorem refuseFrame (h : InRange s) (st : Status) : InRange (s.refuseFrame st) := (h.setFrame _ _).replyDue _

theorem commandChar (h : InRange s) (code : Byte) : InRange (s.commandChar code) := by
  unfold State.commandChar; split
  · split
    · exact h.takeBroadcast everyCommand.hold
    · exact h.takeBroadcast everyCommand.resume
    · exact h.setFrame _ _
  · split
    · exact h.refuseFrame _
    · exact ite (h.takeCommand (everyCommand.commandOf _ _)) (h.setFrame _ _)

theorem collected (h : InRange s) (shape : FrameShape) (code : Byte) (ps : List Byte) :
    InRange (s.collected shape code ps) :=
  ite (h.refuseFrame _) (ite (h.setFrame _ _) (h.takeCommand (everyCommand.commandOf _ _)))

theorem paramChar (h : InRange s) (code : Byte) (ps : List Byte) (v : Byte) : InRange (s.paramChar code ps v) := by
  unfold State.paramChar; split
  · exact h.setFrame _ _
  · exact h.collected _ _ _

theorem lineData (h : InRange s) (v : Byte) : InRange (s.lineData v) := by
  have k : InRange { s with sli := { s.sli with quietTimer := 0 } } := h.setLine rfl
  unfold State.lineData; dsimp only; split
  · exact k
  · exact k
  · exact k.commandChar v
  · exact k.paramChar _ _ v

theorem lineInError (h : InRange s) : InRange s.lineInError := by
  have k : InRange { s with sli := { s.sli with lineErrors := satInc counterTop s.sli.lineErrors } } :=
    ⟨{ h.belt with }, { h.counters with lineErrors := satInc_le _ _ }⟩
  exact (k.setFrame _ _).cancelReply

theorem lineReceives (h : InRange s) (c : LineChar) : InRange (s.lineReceives c) :=
  ite (ite (h.lineMarked _) (h.lineData _)) h.lineInError

/-! ### Meanings -/

/-- An event of a running part is taken, or the part stays as it is. -/
theorem event (h : InRange s) {f : State → State} {t : State} (ht : s.event f = .next t) (hf : InRange (f s)) :
    InRange t := by
  unfold State.event at ht; split at ht
  · exact Host.Outcome.next.inj ht ▸ h
  · exact Host.Outcome.next.inj ht ▸ hf

theorem station (h : InRange s) {f : State → State × Answer} (hf : ∀ {u}, InRange u → InRange (f u).1) {t : State}
    (ht : s.station f = .next t) : InRange t := by
  obtain e | e := State.station_cases ht <;> rw [e]
  · exact h
  · exact h.cancelReply.takeCommand hf

theorem broadcasting (h : InRange s) {f : State → State × Answer} (hf : ∀ {u}, InRange u → InRange (f u).1)
    {t : State} (ht : s.broadcasting f = .next t) : InRange t := by
  refine h.event ht ?_
  exact ite h (h.cancelReply.takeBroadcast hf)

theorem dataRow (h : InRange s) (v : Byte) {t : State} (ht : s.dataRow v = .next t) : InRange t := by
  refine h.event ht ?_
  exact ite h (h.lineData v)

theorem reset : InRange State.reset where
  belt := ⟨by decide, by decide, by decide, by decide, fun _ h => (nomatch h), by decide⟩
  counters := by
    have lanes : ∀ l, State.reset.lane l = .reset := fun l => by simp [State.reset, State.lane, Vector.get_eq_getElem]
    have zeros : ∀ {n : Nat} (i : Fin n), (Vector.replicate n 0).get i ≤ 65535 := fun i => by
      simp [Vector.get_eq_getElem]
    exact ⟨by decide, zeros, zeros, by decide, by decide, by decide, by decide, by decide,
      fun l => lanes l ▸ by decide, fun l => lanes l ▸ by decide, by decide, by decide⟩

/-- The state a reset begins with (R165): the queue and the free values are the model's own. -/
theorem held (s : State) (c : ResetCause) (x : Nat) : InRange (s.held c x) :=
  ⟨{ reset.belt with }, { reset.counters with }⟩

/-- Every command of the table keeps the ranges. -/
theorem exec (h : InRange s) (i : Instr) {t : State} (ht : exec i s = .next t) : InRange t := by
  unfold Machine.exec at ht
  cases i with
  | powerOnReset => exact Host.Outcome.next.inj ht ▸ held s _ _
  | pinReset =>
    simp only [execPinReset] at ht
    split at ht
    · exact Host.Outcome.next.inj ht ▸ h
    · exact Host.Outcome.next.inj ht ▸ held s _ _
  | releaseOfResetN pins =>
    simp only [execReleaseOfResetN] at ht
    split at ht
    · exact Host.Outcome.next.inj ht ▸ h
    · exact Host.Outcome.next.inj ht ▸ ⟨{ h.belt with }, { h.counters with }⟩
  | encoderPulse => exact h.event ht h.settle.pulse
  | p8Capture => exact h.event ht h.takeCapture
  | stopTimeExpiry => exact h.event ht (h.awaitTimer _)
  | inductionLeadingEdge => exact h.event ht h.inductionLeads
  | inductionTrailingEdge => exact h.event ht h.inductionTrails
  | overlength => exact h.event ht h.markOverlength
  | holdLimitReached => exact h.event ht h.reachHoldLimit
  | triggerSend => exact h.event ht h.beginTrigger
  | triggerSent => exact h.event ht (h.awaitTimer _)
  | readerCharacter c => exact h.event ht (h.readerReceives c)
  | readerGapTimeout => exact h.event ht (h.awaitTimer _)
  | readWindowExpiry k => exact h.event ht (h.expireReadWindow k)
  | fireDue l => exact h.event ht (h.onFireDue l)
  | strokeEndCountReached l => exact h.event ht (h.onStrokeEnd l)
  | pullTimeElapsed l => exact h.event ht (h.awaitTimer _)
  | onTimeCap l => exact h.event ht (h.awaitTimer _)
  | recoveryTimeElapsed l => exact h.event ht (h.awaitTimer _)
  | testEnd l => exact h.event ht (h.awaitTimer _)
  | carrierPeriodStart => exact h.event ht (h.runOn _)
  | laneEyeLeadingEdge l => exact h.event ht (h.laneEyeLeads l)
  | laneEyeTrailingEdge l => exact Host.Outcome.next.inj ht ▸ h
  | confirmWindowClose k => exact h.event ht (h.onConfirmClose k)
  | endEyeLeadingEdge => exact h.event ht h.endEyeLeads
  | endEyeTrailingEdge => exact h.event ht (h.setEndEye _)
  | endWindowExpiry k => exact h.event ht (h.onEndWindow k)
  | guardOpening => exact h.event ht h.guardOpens
  | guardClosing => exact h.event ht (h.setGuard _)
  | addressCharacter v => exact h.event ht (ite h (h.lineMarked v))
  | unknownCommand v => exact h.dataRow v ht
  | lineError c => exact h.event ht (ite h (h.lineReceives c))
  | frameGapTimeout => exact h.event ht (h.awaitTimer _)
  | replyStart => exact h.event ht (h.awaitTimer _)
  | replyEnd => exact h.event ht (h.awaitTimer _)
  | softResetEffect => exact h.event ht h.softResetComes
  | readStatus => exact h.station everyCommand.readStatus ht
  | ackAttention w => exact h.station (everyCommand.ackAttention w) ht
  | setMask w => exact h.station (everyCommand.setMask w) ht
  | readReaderCounters => exact h.station everyCommand.readReaderCounters ht
  | setMode m => exact h.station (everyCommand.setMode m) ht
  | hold b =>
    cases b with
    | true => exact h.broadcasting everyCommand.hold ht
    | false => exact h.station everyCommand.hold ht
  | resume b =>
    cases b with
    | true => exact h.broadcasting everyCommand.resume ht
    | false => exact h.station everyCommand.resume ht
  | softReset => exact h.station everyCommand.softReset ht
  | writeGeometry r => exact h.station (everyCommand.writeGeometry r) ht
  | writeLanes a rs => exact h.station (everyCommand.writeLanes a rs) ht
  | writeCarrier k => exact h.station (everyCommand.writeCarrier k) ht
  | testStroke l d => exact h.station (everyCommand.testStroke l d) ht
  | openLane l => exact h.station (everyCommand.openLane l) ht
  | closeLane l => exact h.station (everyCommand.closeLane l) ht
  | setCapacity l w => exact h.station (everyCommand.setCapacity l w) ht
  | rackExchanged l => exact h.station (everyCommand.rackExchanged l) ht
  | readLanes a n => exact h.station (everyCommand.readLanes a n) ht
  | writePatterns a rs => exact h.station (everyCommand.writePatterns a rs) ht
  | writeForms a rs => exact h.station (everyCommand.writeForms a rs) ht
  | writeClasses a rs => exact h.station (everyCommand.writeClasses a rs) ht
  | writeRoutes a rs => exact h.station (everyCommand.writeRoutes a rs) ht
  | writeCatalogueSettings r => exact h.station (everyCommand.writeSettings r) ht
  | readPatterns a n => exact h.station (everyCommand.readPatterns a n) ht
  | readForms a n => exact h.station (everyCommand.readForms a n) ht
  | readClasses a n => exact h.station (everyCommand.readClasses a n) ht
  | readRoutes a n => exact h.station (everyCommand.readRoutes a n) ht
  | readCatalogueSettings => exact h.station everyCommand.readSettings ht
  | readTicket k g => exact h.station (everyCommand.readTicket k g) ht
  | findTickets a b c => exact h.station (everyCommand.findTickets a b c) ht
  | redirect k g l => exact h.station (everyCommand.redirect k g l) ht
  | pull k g => exact h.station (everyCommand.pull k g) ht
  | readTallies => exact h.station everyCommand.readTallies ht
  | clearTallies => exact h.station everyCommand.clearTallies ht
  | readEndMonitor => exact h.station everyCommand.readEndMonitor ht
  | commandCharacter v => exact h.dataRow v ht
  | parameterCharacter v => exact h.dataRow v ht
  | badLength v => exact h.dataRow v ht
  | dataCharacterDuringWait v => exact h.dataRow v ht
  | activePortionEnd l => exact h.event ht (ite (h.runOn _) h)

/-- A step keeps the ranges. -/
theorem step {t : State} (h : InRange s) (ht : step s = .next t) : InRange t :=
  step_keeps (P := InRange) (fun _ _ k => ⟨{ k.belt with }, { k.counters with }⟩) (fun _ k => k.choose)
    (fun _ k => k.elapse 1) (fun i _ _ k => k.exec i) h ht

end Sys2Proof.Safety.InRange

open Sys2Proof.Machine Sys2Proof.Safety

/-- Settles O60: every command, every own event and the passing of time keep the ranges. -/
theorem stepKeepsRanges : Obligations.StepKeepsRanges := by
  intro s t hb hc ht
  obtain ⟨belt, counters⟩ := InRange.step ⟨hb, hc⟩ ht
  exact ⟨belt, counters⟩
end

section
/-! Chapter 1, small claims: the count arithmetic (R4), the reset values and a step on an empty queue. -/

namespace Sys2Proof.Machine

open Sys2Proof.Safety

/-! ### Count arithmetic (R4) -/

/-- The signed difference reads the modular one as signed. -/
theorem signedDiff_eq (a b : Count) : signedDiff a b =
    if (b - a).toNat < 32768 then ((b - a).toNat : Int) else ((b - a).toNat : Int) - 65536 := by
  unfold signedDiff
  rw [BitVec.toInt_eq_toNat_cond]
  split <;> split <;> omega

/-- The difference of two counts, modulo 65536. -/
theorem toNat_countSub (a b : Count) : (b - a).toNat = (b.toNat + 65536 - a.toNat) % 65536 := by
  rw [BitVec.toNat_sub]; omega

/-! ### Tables of equal entries -/

@[simp] theorem get_replicate {α : Type} {n : Nat} (x : α) (i : Fin n) : (Vector.replicate n x).get i = x := by
  simp [Vector.get_eq_getElem]

/-! ### A step on an empty queue (logs 2 and 3) -/

theorem step_empty {s : State} (h : s.pending = []) : step s = s.idle := by
  unfold step; rw [h]

/-- One of several due events is chosen from among them. -/
theorem chosen_mem {α : Type} (n : Nat) (x : α) (xs : List α) : chosen n x xs ∈ x :: xs := by
  unfold chosen
  rw [List.getD_eq_getElem?_getD]
  cases hx : (x :: xs)[Config.orderChoice n % (xs.length + 1)]? with
  | none => exact List.mem_cons_self
  | some y => exact List.mem_of_getElem? hx

/-- With no own event due a clock passes. -/
theorem idle_of_nothing {s : State} (hr : Running s) (h : s.ownEvents = []) : s.idle = .next (s.elapse 1) := by
  unfold State.idle State.nextOwn
  rw [hr, h]

/-- The one own event that is due is taken as its row. -/
theorem idle_of_one {s : State} {e : OwnEvent} (hr : Running s) (h : s.ownEvents = [e]) : s.idle = exec e.row s := by
  unfold State.idle State.nextOwn
  rw [hr, h]

/-- Of several own events that are due one is taken as its row, and a free value is used. -/
theorem idle_of_several {s : State} {e f : OwnEvent} {es : List OwnEvent} (hr : Running s)
    (h : s.ownEvents = e :: f :: es) :
    s.idle = exec (chosen s.choices e (f :: es)).row { s with choices := s.choices + 1 } := by
  unfold State.idle State.nextOwn
  rw [hr, h]

end Sys2Proof.Machine

open Sys2Proof.Machine Sys2Proof.Safety

/-- Settles O8. -/
theorem countArithmetic : Obligations.CountArithmetic := by
  intro a b x now
  refine ⟨signedDiff_eq a b, toNat_countSub a b, isReached_iff_signedDiff now x, ?_, rfl⟩
  rw [isReached_iff, toNat_countSub]

/-- Settles O6: each item of the state after reset is read off its definition. -/
theorem resetValuesOfTheManual : Obligations.ResetValuesOfTheManual := by
  refine ⟨rfl, rfl, rfl, rfl, rfl, rfl, rfl, rfl, rfl, get_replicate _, rfl, get_replicate _, get_replicate _, rfl, rfl,
    rfl, rfl, rfl, rfl, rfl, get_replicate _, get_replicate _, get_replicate _, get_replicate _, rfl, rfl, rfl,
    get_replicate _, get_replicate _, fun l => ?_, rfl, rfl, rfl, rfl, rfl, rfl, rfl⟩
  have h : State.reset.drive l = Drive.reset := get_replicate _ l
  rw [h]
  exact ⟨rfl, rfl, rfl⟩

/-- Settles O2, by the own events that are due: none, one or several. -/
theorem idleStepTakesOwnEvents : Obligations.IdleStepTakesOwnEvents := by
  intro s hq
  rw [step_empty hq]
  refine ⟨fun cause hr => ?_, fun hr h => ?_, fun c hr h => ?_, fun hr h => ?_⟩
  · simp [State.idle, State.elapse, hr]
  · exact idle_of_nothing hr (List.map_eq_nil_iff.mp h)
  · obtain ⟨e, he, rfl⟩ := List.map_eq_singleton_iff.mp h
    exact idle_of_one hr he
  · match he : s.ownEvents with
    | [] => simp [State.ownDue, he] at h
    | [_] => simp [State.ownDue, he] at h
    | e :: f :: es =>
      refine ⟨_, ?_, idle_of_several hr he⟩
      rw [State.ownDue, he]
      exact List.mem_map_of_mem (chosen_mem _ _ _)
end

section
/-! Chapter 1: what an encoder pulse does (R1, R3, R6, R7), and the mark that the count event at a blocked eye sets (R45,
R46). -/

namespace Sys2Proof.Machine

open Sys2Proof.Safety

/-- With no reach of the present count outstanding an encoder pulse is the pulse alone. -/
theorem exec_encoderPulse {s : State} (hr : Running s) (h : s.countDue = []) : exec .encoderPulse s = .next s.pulse := by
  have e : exec .encoderPulse s = s.event (fun s => s.settle.pulse) := rfl
  rw [e, State.event_running hr, settle_of_none h]

/-- A pulse short of a belt count advances the remainder (R1). -/
theorem pulse_short {s : State} (h : s.bcu.remainder + 1 < s.pulsesPerCount) :
    s.pulse = { s with bcu := { s.bcu with remainder := s.bcu.remainder + 1 } } := if_pos h

/-- A pulse that completes a belt count clears the remainder and is a count event (R1). -/
theorem pulse_counts {s : State} (h : s.pulsesPerCount ≤ s.bcu.remainder + 1) :
    s.pulse = State.countEvent { s with bcu := { s.bcu with remainder := 0 } } := if_neg (Nat.not_lt.mpr h)

/-- The blocked length of the Induction Unit after a count event (R45). -/
def InductionUnit.counted (u : InductionUnit) : InductionUnit :=
  if u.underEye ≠ none ∧ u.eye = .blocked then { u with blockedLength := min (u.blockedLength + 1) 1023 } else u

/-- A count event is the Belt Count Unit's and the Induction Unit's, and the mark of a ticket that has become too long. -/
theorem countEvent_eq (s : State) : s.countEvent =
    if s.ind.underEye ≠ none ∧ s.ind.eye = .blocked then
      State.markOverlength { s with bcu := s.bcu.countEvent, ind := s.ind.counted }
    else { s with bcu := s.bcu.countEvent, ind := s.ind.counted } := by
  unfold State.countEvent State.countBlocked InductionUnit.counted
  simp only [Option.isSome_iff_ne_none]
  split <;> rfl

/-- The ticket that a count event makes too long is the one that it marks (R46). -/
theorem markOverlength_grown {s c : State} {k : Slot} {t : Ticket} (h : GrowsOverlength s k t)
    (hi : c.ind = s.ind.counted) (ht : c.tt = s.tt) :
    c.markOverlength = (c.modTicket k (fun u => { u with overlength := true })).raise .overlength := by
  obtain ⟨hk, he, hl, ho, hn⟩ := h
  have hb : c.ind = { s.ind with blockedLength := min (s.ind.blockedLength + 1) 1023 } := by
    rw [hi, InductionUnit.counted, if_pos ⟨by simp [hk], he⟩]
  have hl' : c.ticketAt? k = some t := by unfold State.ticketAt? at hl ⊢; rw [ht, hl]
  have hd : c.overlengthDue = some k := by
    unfold State.overlengthDue
    simp only [hb, hk, hl', ho]
    rw [if_pos ⟨by omega, trivial⟩]
  unfold State.markOverlength
  rw [hd]

/-- A count event that makes no ticket too long marks none. -/
theorem markOverlength_idle {s c : State} (h : ∀ k t, ¬ GrowsOverlength s k t) (he : s.ind.eye = .blocked)
    (hi : c.ind = s.ind.counted) (ht : c.tt = s.tt) : c.markOverlength = c := by
  have hd : c.overlengthDue = none := by
    unfold State.overlengthDue
    split
    · rfl
    · rename_i k hk
      have hu : s.ind.underEye = some k := by
        rw [← hk, hi, InductionUnit.counted]; split <;> rfl
      have hb : c.ind.blockedLength = min (s.ind.blockedLength + 1) 1023 := by
        rw [hi, InductionUnit.counted, if_pos ⟨by simp [hu], he⟩]
      split
      · rfl
      · rename_i t htk
        refine if_neg (fun hg => h k t ⟨hu, he, ?_, hg.2, by omega⟩)
        unfold State.ticketAt? at htk ⊢; rw [← htk, ht]
  unfold State.markOverlength
  rw [hd]

end Sys2Proof.Machine

open Sys2Proof.Machine Sys2Proof.Safety

/-- Settles O9: short of a belt count, at a count that makes no ticket too long, and at one that does. -/
theorem encoderPulseCounts : Obligations.EncoderPulseCounts := by
  intro s hr hdue
  rw [exec_encoderPulse hr hdue]
  refine ⟨fun h => congrArg _ (pulse_short h), fun c h hc => ?_⟩
  have hb : c.bcu = ({ s.bcu with remainder := 0 } : BeltCountUnit).countEvent := by
    rw [hc]; rfl
  have hi : c.ind = s.ind.counted := by rw [hc]; rfl
  have ht : c.tt = s.tt := by rw [hc]
  have hs : { s with bcu := ({ s.bcu with remainder := 0 } : BeltCountUnit).countEvent, ind := s.ind.counted } = c := by
    rw [← hb, ← hi, hc]
  have hp : s.pulse = if s.ind.underEye ≠ none ∧ s.ind.eye = .blocked then c.markOverlength else c := by
    rw [pulse_counts h, countEvent_eq, ← hs]
  rw [hp]
  refine ⟨fun hg => ?_, fun k t hg => ?_⟩
  · split
    · rename_i hx; rw [markOverlength_idle hg hx.2 hi ht]
    · rfl
  · rw [if_pos ⟨by simp [hg.1], hg.2.1⟩, markOverlength_grown hg hi ht]
end

section
/-! Chapter 1: the P8 capture taken apart (R7), the stop event (R8) and WRITE GEOMETRY (R12). -/

namespace Sys2Proof.Machine

open Sys2Proof.Safety

/-! ### The capture and the stop event (R7, R8) -/

/-- The state with a captured P8, before it is handed to the Divert Timer (R7). -/
def State.withP8 (s : State) (v : Nat) : State := { s with bcu := { s.bcu with p8 := max 1 v, capture := none } }

theorem takeCapture_of_none {s : State} (h : s.bcu.capture = none) : s.takeCapture = s := by
  unfold State.takeCapture; rw [h]

theorem takeCapture_of_some {s : State} {v : Nat} (h : s.bcu.capture = some v) :
    s.takeCapture = (s.withP8 v).recomputeLeads := by
  unfold State.takeCapture; rw [h]; rfl

/-- A channel that arms nothing has no lead to recompute. -/
theorem recomputeLane_unarmed {s : State} {l : Lane} (h : (s.channel l).armed = none) : s.recomputeLane l = s := by
  unfold State.recomputeLane; rw [h]

theorem recomputeLeads_unarmed {s : State} (h : ∀ l, (s.channel l).armed = none) : s.recomputeLeads = s :=
  State.forLanes_id s (fun l => recomputeLane_unarmed (h l))

/-- A capture changes P8 alone in the Belt Count Unit, takes the latched value with it, and leaves the reader line. -/
theorem takeCapture_bcu_rli (s : State) :
    (∃ p, s.takeCapture.bcu = { s.bcu with p8 := p, capture := none }) ∧ s.takeCapture.rli = s.rli := by
  cases h : s.bcu.capture with
  | none =>
    rw [takeCapture_of_none h]
    exact ⟨⟨s.bcu.p8, by rw [← h]⟩, rfl⟩
  | some v =>
    have k := Steady.recomputeLeads (s.withP8 v)
    rw [takeCapture_of_some h]
    exact ⟨⟨_, k.bcu⟩, k.rli⟩

/-- A flag is set by its setting event. -/
theorem flagSet_raise (s : State) (f : Flag) : (s.raise f).flagSet f = true := by
  have hf : f.bit ≠ 0 := by cases f <;> decide
  have ha : (s.sli.flags ||| f.bit) &&& f.bit = f.bit := by
    ext i hi; simp +contextual
  simpa [State.flagSet, ha] using hf

/-- The Belt Count Unit after the stop event (R8). -/
def BeltCountUnit.halted (b : BeltCountUnit) : BeltCountUnit :=
  { b with motion := .stopped, p8 := 65535, blockCount := 0, blockTimer := 0, stopTimer := 0, capture := none }

/-- The stop event: the unit stands, BELT_STOPPED is set, and nothing else but the Divert Timer's answer changes. -/
theorem stopBelt_spec (s : State) : s.stopBelt.bcu = s.bcu.halted ∧ s.stopBelt.flagSet .beltStopped = true ∧
    s.stopBelt.rli = s.rli := by
  obtain ⟨⟨p, hb⟩, hr⟩ := takeCapture_bcu_rli s
  have k := Steady.recomputeLeads (State.raise { s.takeCapture with bcu := s.takeCapture.bcu.halted } .beltStopped)
  refine ⟨k.bcu.trans ?_, k.flagSet (flagSet_raise _ _), k.rli.trans hr⟩
  show s.takeCapture.bcu.halted = s.bcu.halted
  rw [hb]; rfl

/-- With no channel armed the stop event changes the unit and the flag alone. -/
theorem stopBelt_unarmed {s : State} (h : ∀ l, (s.channel l).armed = none) :
    s.stopBelt = ({ s with bcu := s.bcu.halted } : State).raise .beltStopped := by
  have hc : ∃ b, b.halted = s.bcu.halted ∧ s.takeCapture = { s with bcu := b } := by
    cases hv : s.bcu.capture with
    | none => exact ⟨s.bcu, rfl, takeCapture_of_none hv⟩
    | some v =>
      refine ⟨(s.withP8 v).bcu, rfl, ?_⟩
      rw [takeCapture_of_some hv, recomputeLeads_unarmed (s := s.withP8 v) h]
      rfl
  obtain ⟨b, hb, hc⟩ := hc
  rw [← hb]
  unfold State.stopBelt
  rw [hc]
  exact recomputeLeads_unarmed h

/-! ### WRITE GEOMETRY (R12) -/

/-- No value was clamped exactly when the four clamped ones stand as written. -/
theorem geometryApplied_eq_iff (r : GeometryRecord) : geometryApplied r = geometryWritten r ↔
    max 1 (min r.endDistance.toNat 30000) = r.endDistance.toNat ∧ min r.readWindow.toNat 1023 = r.readWindow.toNat ∧
      max 1 r.stopTime.toNat = r.stopTime.toNat ∧ max 1 (min r.faultLimit.toNat 15) = r.faultLimit.toNat := by
  simp [geometryApplied, geometryWritten, clampTo]

/-- The status tells whether a value was clamped. -/
theorem clampStatus_geometry (r : GeometryRecord) : clampStatus (geometryApplied r != geometryWritten r) =
    if max 1 (min r.endDistance.toNat 30000) = r.endDistance.toNat ∧ min r.readWindow.toNat 1023 = r.readWindow.toNat ∧
      max 1 r.stopTime.toNat = r.stopTime.toNat ∧ max 1 (min r.faultLimit.toNat 15) = r.faultLimit.toNat
    then .ok else .clamped := by
  simp only [← geometryApplied_eq_iff]
  split
  · rename_i h; simp [h, clampStatus]
  · rename_i h; simp [h, clampStatus]

/-- The reply carries the values as applied; the exponent and the tolerance are never clamped. -/
theorem chars_geometryApplied (r : GeometryRecord) : (geometryApplied r).chars =
    [r.prescaleExponent] ++ natChars (max 1 (min r.endDistance.toNat 30000)) ++ natChars (min r.readWindow.toNat 1023)
      ++ [r.endTolerance, byteOf (max 1 r.stopTime.toNat), byteOf (max 1 (min r.faultLimit.toNat 15))] := by
  simp [Geometry.chars, geometryApplied, clampTo]

/-- New settings whose stop time has not passed are applied with the remainder cleared, and nothing else happens (R2). -/
theorem applyGeometry_running {s : State} {g : Geometry}
    (h : s.bcu.motion = .stopped ∨ s.bcu.stopTimer < g.stopTime * 10000) :
    s.applyGeometry g = { s with geo := g, bcu := { s.bcu with remainder := 0 } } := by
  refine if_neg ?_
  rintro ⟨hm, hl⟩
  obtain hs | hs := h
  · exact absurd (hs.symm.trans hm) (by decide)
  · exact absurd hl (Nat.not_le.mpr hs)

end Sys2Proof.Machine

open Sys2Proof.Machine Sys2Proof.Safety

/-- Settles O11: a stopped belt has no stop timer, and one that moves stops at its limit. -/
theorem stopTimeStopsTheBelt : Obligations.StopTimeStopsTheBelt := by
  intro s hr
  have he : exec .stopTimeExpiry s = s.event (fun s => s.awaitTimer .stop) := rfl
  rw [he, State.event_running hr]
  refine ⟨fun hm => ?_, fun hm hl => ⟨s.stopBelt, ?_, ?_⟩⟩
  · rw [State.awaitTimer_stopped]; simp [State.timeLeft, hm]
  · rw [State.awaitTimer_due]
    · rfl
    · simp only [State.timeLeft, hm, if_true, State.stopLimit, Nat.sub_eq_zero_of_le hl]
  · obtain ⟨hb, hf, hrli⟩ := stopBelt_spec s
    have ha := Apart.stopBelt s
    refine ⟨hb, hf, ha.cat, ha.geo, hrli, ha.em, fun hn => ?_⟩
    rw [hb, stopBelt_unarmed hn]

/-- Settles O47: the mode, then the exponent, then the write. -/
theorem writeGeometryAppliesAndClamps : Obligations.WriteGeometryAppliesAndClamps := by
  intro s r hl
  refine ⟨fun hm => ?_, fun hm hp => ?_, ?_⟩
  · exact State.station_answered hl (if_pos hm) rfl
  · exact State.station_answered hl ((if_neg (not_not.mpr hm)).trans (if_pos hp)) rfl
  · rintro _ _ _ _ hm hp rfl rfl rfl rfl hstop
    have hs := applyGeometry_running (s := s.frameDone) (g := geometryApplied r) hstop
    refine State.station_answered hl ((if_neg (not_not.mpr hm)).trans ((if_neg (Nat.not_lt.mpr hp)).trans ?_)) rfl
    rw [hs, clampStatus_geometry, chars_geometryApplied]
    rfl
end

section
/-! Chapter 1: the five checks of Table 1-5 (R14, R15), as the model runs them and as the manual words them, and SET MODE
RUN in SETUP (R156). -/

namespace Sys2Proof.Machine

open Sys2Proof.Safety

/-! ### The installed lanes (R15) -/

theorem mem_installed {s : State} {l : Lane} : l ∈ s.installed ↔ Installed s l := by
  simp [State.installed, mem_allLanes, Installed]

theorem installed_sorted (s : State) : s.installed.Pairwise (· < ·) :=
  List.Pairwise.filter _ (by decide)

theorem firstInstalled_iff {s : State} {l : Lane} : s.installed.head? = some l ↔ FirstInstalled s l := by
  have hs := installed_sorted s
  simp only [FirstInstalled, ← mem_installed]
  cases h : s.installed with
  | nil => simp
  | cons a rest =>
    rw [h] at hs
    have ha : ∀ m ∈ rest, a < m := fun _ => List.rel_of_pairwise_cons hs
    constructor
    · rintro ⟨⟩
      refine ⟨List.mem_cons_self, fun m hm hmem => ?_⟩
      rcases List.mem_cons.mp hmem with rfl | hmem
      · exact lt_irrefl _ hm
      · exact lt_asymm hm (ha m hmem)
    · rintro ⟨hl, hm⟩
      rcases List.mem_cons.mp hl with rfl | hl
      · rfl
      · exact absurd List.mem_cons_self (hm a (ha l hl))

theorem lastInstalled_iff {s : State} {l : Lane} : s.installed.getLast? = some l ↔ LastInstalled s l := by
  have hs := installed_sorted s
  simp only [LastInstalled, ← mem_installed]
  rcases List.eq_nil_or_concat s.installed with h | ⟨init, a, h⟩
  · simp [h]
  · rw [List.concat_eq_append] at h
    rw [h] at hs ⊢
    have ha : ∀ m ∈ init, m < a := fun m hm => (List.pairwise_append.mp hs).2.2 m hm a (by simp)
    constructor
    · intro e
      obtain rfl : a = l := by simpa using e
      refine ⟨by simp, fun m hm hmem => ?_⟩
      rcases List.mem_append.mp hmem with hmem | hmem
      · exact lt_asymm hm (ha m hmem)
      · exact absurd (List.mem_singleton.mp hmem) (ne_of_gt hm)
    · rintro ⟨hl, hm⟩
      rcases List.mem_append.mp hl with hl | hl
      · exact absurd (by simp) (hm a (ha l hl))
      · simp [List.mem_singleton.mp hl]

/-! ### Check 1 -/

/-- A lane of a list whose distance is not greater than that of the lane before it there. -/
def OutOfOrderIn (s : State) (ls : List Lane) (l : Lane) : Prop :=
  l ∈ ls ∧ ∃ m ∈ ls, m < l ∧ (∀ k, m < k → k < l → k ∉ ls) ∧ (s.lane l).distance ≤ (s.lane m).distance

theorem outOfOrder_iff {s : State} {l : Lane} : OutOfOrder s l ↔ OutOfOrderIn s s.installed l := by
  simp only [OutOfOrder, OutOfOrderIn, mem_installed]

/-- In a list in lane order the lane before the second is the first, and all other pairs stand in the tail. -/
theorem outOfOrderIn_cons {s : State} {a b : Lane} {rest : List Lane} {l : Lane}
    (hs : (a :: b :: rest).Pairwise (· < ·)) : OutOfOrderIn s (a :: b :: rest) l ↔
      (l = b ∧ (s.lane b).distance ≤ (s.lane a).distance) ∨ OutOfOrderIn s (b :: rest) l := by
  have ha : ∀ m ∈ b :: rest, a < m := fun _ => List.rel_of_pairwise_cons hs
  have hb : ∀ m ∈ rest, b < m := fun _ => List.rel_of_pairwise_cons hs.of_cons
  constructor
  · rintro ⟨hl, m, hm, hlt, hbetween, hd⟩
    have hl' : l ∈ b :: rest := by
      rcases List.mem_cons.mp hl with rfl | hl
      · rcases List.mem_cons.mp hm with rfl | hm
        · exact absurd hlt (lt_irrefl _)
        · exact absurd hlt (lt_asymm (ha m hm))
      · exact hl
    rcases List.mem_cons.mp hm with rfl | hm
    · left
      rcases List.mem_cons.mp hl' with rfl | hr
      · exact ⟨rfl, hd⟩
      · exact absurd (by simp) (hbetween b (ha b List.mem_cons_self) (hb l hr))
    · exact .inr ⟨hl', m, hm, hlt, fun k h h' hk => hbetween k h h' (List.mem_cons_of_mem _ hk), hd⟩
  · rintro (⟨rfl, hd⟩ | ⟨hl, m, hm, hlt, hbetween, hd⟩)
    · refine ⟨by simp, a, by simp, ha _ List.mem_cons_self, fun k h h' hk => ?_, hd⟩
      rcases List.mem_cons.mp hk with rfl | hk
      · exact lt_irrefl _ h
      · rcases List.mem_cons.mp hk with rfl | hk
        · exact lt_irrefl _ h'
        · exact lt_asymm h' (hb k hk)
    · refine ⟨List.mem_cons_of_mem _ hl, m, List.mem_cons_of_mem _ hm, hlt, fun k h h' hk => ?_, hd⟩
      rcases List.mem_cons.mp hk with rfl | hk
      · exact lt_asymm h (ha m hm)
      · exact hbetween k h h' hk

/-- The search finds the first lane out of order, or there is none. -/
theorem firstOutOfOrder_spec (s : State) (ls : List Lane) (hs : ls.Pairwise (· < ·)) :
    (s.firstOutOfOrder ls = none ∧ ∀ l, ¬ OutOfOrderIn s ls l) ∨
      ∃ l, s.firstOutOfOrder ls = some l ∧ OutOfOrderIn s ls l ∧ ∀ k, k < l → ¬ OutOfOrderIn s ls k := by
  induction ls with
  | nil => exact .inl ⟨rfl, fun l h => absurd h.1 (by simp)⟩
  | cons a ls ih =>
    cases ls with
    | nil =>
      refine .inl ⟨rfl, ?_⟩
      rintro l ⟨hl, m, hm, hlt, -, -⟩
      rw [List.mem_singleton.mp hl, List.mem_singleton.mp hm] at hlt
      exact lt_irrefl _ hlt
    | cons b rest =>
      simp only [outOfOrderIn_cons hs, State.firstOutOfOrder]
      by_cases hd : (s.lane a).distance < (s.lane b).distance
      · simpa [hd, Nat.not_le.mpr hd] using ih hs.of_cons
      · refine .inr ⟨b, if_neg hd, .inl ⟨rfl, Nat.not_lt.mp hd⟩, ?_⟩
        rintro k hk (⟨rfl, -⟩ | ⟨hmem, -⟩)
        · exact lt_irrefl _ hk
        · rcases List.mem_cons.mp hmem with rfl | hmem
          · exact lt_irrefl _ hk
          · exact lt_asymm hk (List.rel_of_pairwise_cons hs.of_cons hmem)

/-- Check 1 finds none exactly when the installed lanes are in order. -/
theorem firstOutOfOrder_none {s : State} : s.firstOutOfOrder s.installed = none ↔ Ordered s := by
  simp only [Ordered, outOfOrder_iff]
  rcases firstOutOfOrder_spec s _ (installed_sorted s) with ⟨hn, h⟩ | ⟨l, hl, h, -⟩
  · exact ⟨fun _ => h, fun _ => hn⟩
  · rw [hl]; exact ⟨fun x => (nomatch x), fun x => absurd h (x l)⟩

/-- Check 1 names the first lane out of order. -/
theorem firstOutOfOrder_some {s : State} {l : Lane} : s.firstOutOfOrder s.installed = some l ↔
    OutOfOrder s l ∧ ∀ k, k < l → ¬ OutOfOrder s k := by
  simp only [outOfOrder_iff]
  rcases firstOutOfOrder_spec s _ (installed_sorted s) with ⟨hn, h⟩ | ⟨m, hm, h, hfirst⟩
  · rw [hn]; exact ⟨fun x => (nomatch x), fun x => absurd x.1 (h l)⟩
  · rw [hm]
    constructor
    · rintro ⟨⟩; exact ⟨h, hfirst⟩
    · rintro ⟨hl, hlf⟩
      rcases lt_trichotomy m l with hlt | rfl | hlt
      · exact absurd h (hlf m hlt)
      · rfl
      · exact absurd hl (hfirst l hlt)

/-! ### Checks 2 to 5 -/

theorem firstTooNear_some {s : State} {l : Lane} : s.firstTooNear = some l ↔
    FirstInstalled s l ∧ ¬ FirstFarEnough s := by
  unfold State.firstTooNear FirstFarEnough
  simp only [← firstInstalled_iff]
  cases h : s.installed.head? with
  | none => simp
  | some m => by_cases hd : 1414 + s.geo.readWindow ≤ (s.lane m).distance <;> simp [hd]

theorem firstTooNear_none {s : State} : s.firstTooNear = none ↔ FirstFarEnough s := by
  unfold State.firstTooNear FirstFarEnough
  simp only [← firstInstalled_iff]
  cases h : s.installed.head? with
  | none => simp
  | some m => by_cases hd : 1414 + s.geo.readWindow ≤ (s.lane m).distance <;> simp [hd]

theorem endFarEnough_iff {s : State} : s.endFarEnough = true ↔ EndFarEnough s := by
  unfold State.endFarEnough EndFarEnough
  simp only [← lastInstalled_iff]
  cases h : s.installed.getLast? with
  | none => simp
  | some m => simp

theorem residueInstalled_iff {s : State} : s.residueInstalled = true ↔ ResidueInstalled s := by
  unfold State.residueInstalled ResidueInstalled Installed
  cases h : s.cat.residueLane with
  | runOff => simp
  | lane m => simp

theorem someInstalled_iff {s : State} : s.installed.isEmpty = false ↔ SomeInstalled s := by
  simp only [SomeInstalled, ← mem_installed]
  cases s.installed with
  | nil => simp
  | cons a rest => exact ⟨fun _ => ⟨a, List.mem_cons_self⟩, fun _ => rfl⟩

/-! ### The checks together (R14) -/

theorem failedCheck_passes {s : State} (h : GeometryPasses s) : s.failedCheck = none := by
  unfold State.failedCheck
  rw [firstOutOfOrder_none.mpr h.ordered, firstTooNear_none.mpr h.firstFar, endFarEnough_iff.mpr h.endFar,
    residueInstalled_iff.mpr h.residue, someInstalled_iff.mpr h.someLane]
  rfl

/-- The check that fails first is the one the part names, with its lane. -/
theorem failedCheck_fails {s : State} {check lane : Nat} (h : GeometryFails s check lane) :
    s.failedCheck = some (check, lane) := by
  unfold State.failedCheck
  rcases h with ⟨rfl, l, rfl, hl, hf⟩ | ⟨rfl, h1, l, rfl, hl, hn⟩ | ⟨rfl, h1, h2, l, rfl, hl, hn⟩ |
    ⟨rfl, h1, h2, h3, l, rfl, hl, hn⟩ | ⟨rfl, h1, h2, h3, h4, rfl, hn⟩
  · rw [firstOutOfOrder_some.mpr ⟨hl, hf⟩]; rfl
  · rw [firstOutOfOrder_none.mpr h1, firstTooNear_some.mpr ⟨hl, hn⟩]; rfl
  · have hn' : s.endFarEnough = false := by rw [← Bool.not_eq_true, endFarEnough_iff]; exact hn
    rw [firstOutOfOrder_none.mpr h1, firstTooNear_none.mpr h2, hn', lastInstalled_iff.mpr hl]; rfl
  · have hn' : s.residueInstalled = false := by
      rw [← Bool.not_eq_true, residueInstalled_iff]; exact fun x => hn (x l hl)
    rw [firstOutOfOrder_none.mpr h1, firstTooNear_none.mpr h2, endFarEnough_iff.mpr h3, hn', hl]; rfl
  · have hn' : s.installed.isEmpty = true := by
      rw [← Bool.not_eq_false, someInstalled_iff]; exact hn
    rw [firstOutOfOrder_none.mpr h1, firstTooNear_none.mpr h2, endFarEnough_iff.mpr h3, residueInstalled_iff.mpr h4,
      hn']
    rfl

/-- A lane number crosses the line as one character. -/
theorem toNat_laneChar (l : Lane) : (byteOf (l.val + 1)).toNat = l.val + 1 := by revert l; decide

/-- With the end distance in its range the checks pass, or the first that fails names its lane. -/
theorem geometry_passes_or_fails {s : State} (he : s.geo.endDistance ≤ 30000) :
    GeometryPasses s ∨ ∃ check lane : Byte, GeometryFails s check.toNat lane.toNat := by
  by_cases h1 : Ordered s
  swap
  · rcases hf : s.firstOutOfOrder s.installed with _ | l
    · exact absurd (firstOutOfOrder_none.mp hf) h1
    · exact .inr ⟨1, byteOf (l.val + 1), .inl ⟨rfl, l, toNat_laneChar l, firstOutOfOrder_some.mp hf⟩⟩
  by_cases h2 : FirstFarEnough s
  swap
  · rcases hf : s.firstTooNear with _ | l
    · exact absurd (firstTooNear_none.mp hf) h2
    · exact .inr ⟨2, byteOf (l.val + 1), .inr (.inl ⟨rfl, h1, l, toNat_laneChar l, firstTooNear_some.mp hf⟩)⟩
  by_cases h3 : EndFarEnough s
  swap
  · rcases hf : s.installed.getLast? with _ | l
    · refine absurd ⟨fun l hl => ?_, he⟩ h3
      rw [← lastInstalled_iff, hf] at hl; cases hl
    · exact .inr ⟨3, byteOf (l.val + 1),
        .inr (.inr (.inl ⟨rfl, h1, h2, l, toNat_laneChar l, lastInstalled_iff.mp hf, h3⟩))⟩
  by_cases h4 : ResidueInstalled s
  swap
  · obtain ⟨l, hl, hn⟩ : ∃ l, s.cat.residueLane = .lane l ∧ ¬ Installed s l := by
      simpa [ResidueInstalled] using h4
    exact .inr ⟨4, byteOf (l.val + 1), .inr (.inr (.inr (.inl ⟨rfl, h1, h2, h3, l, toNat_laneChar l, hl, hn⟩)))⟩
  by_cases h5 : SomeInstalled s
  · exact .inl ⟨h1, h2, h3, h4, h5⟩
  · exact .inr ⟨5, 0, .inr (.inr (.inr (.inr ⟨rfl, h1, h2, h3, h4, rfl, h5⟩)))⟩

/-! ### SET MODE RUN (R156) -/

/-- Ending the test strokes changes drives alone. -/
theorem endTestStrokes_drives (s : State) : ∃ d, s.endTestStrokes = { s with drives := d } := by
  refine State.forLanes_keeps (P := fun u => ∃ d, u = { s with drives := d }) s ⟨s.drives, rfl⟩ ?_
  rintro _ l ⟨d, rfl⟩
  split
  · exact ⟨_, rfl⟩
  · exact ⟨d, rfl⟩

/-- With no test stroke running there is none to end. -/
theorem endTestStrokes_none {s : State} (h : ∀ l, (s.drive l).inTest = false) : s.endTestStrokes = s :=
  State.forLanes_id s (fun l => by simp [h l])

/-- Every test stroke is ended. -/
theorem endTestStrokes_not_driven {s : State} {l : Lane} (h : (s.drive l).inTest = true) :
    ¬ Driven s.endTestStrokes l := by
  have kept : s.endTestStrokes.drive l = s.drive l ∨ ¬ Driven s.endTestStrokes l := by
    refine State.forLanes_keeps (P := fun u => u.drive l = s.drive l ∨ ¬ Driven u l) s (.inl rfl) ?_
    intro u m hu
    split
    · by_cases e : l = m
      · subst e; exact .inr (not_driven_driveRecover u l)
      · simp only [Driven, drive_driveRecover, if_neg e]; exact hu
    · exact hu
  have ended : (s.endTestStrokes.drive l).inTest = false := by
    have idle : ∀ u : State, ∀ m, ((u.driveRecover m).drive m).inTest = false := fun u m => by
      rw [Drive.inTest, driven_eq_false (not_driven_driveRecover u m)]; rfl
    refine State.forLanes_each (P := fun l u => (u.drive l).inTest = false) s ?_ ?_ l
    · intro u m; split
      · exact idle u m
      · rename_i hn; simpa using hn
    · intro u m k hu; split
      · by_cases e : m = k
        · subst e; exact idle u m
        · rw [drive_driveRecover, if_neg e]; exact hu
      · exact hu
  obtain he | hn := kept
  · rw [he, h] at ended; cases ended
  · exact hn

theorem cmdSetMode_run {s : State} (h : s.mode = .setup) : cmdSetMode 1 s = s.enterRun := by
  unfold cmdSetMode; rw [h]; rfl

theorem enterRun_passes {s : State} (h : GeometryPasses s) (hg : s.mc.guard = .closed) :
    s.enterRun = (s.endTestStrokes.setMode .run).modeAnswer .ok := by
  unfold State.enterRun; rw [failedCheck_passes h, hg]

theorem enterRun_unguarded {s : State} (h : GeometryPasses s) (hg : s.mc.guard = .opened) :
    s.enterRun = s.modeAnswer .state := by
  unfold State.enterRun; rw [failedCheck_passes h, hg]

theorem enterRun_fails {s : State} {check lane : Nat} (h : GeometryFails s check lane) :
    s.enterRun = (s, { status := .geometry, data := s.geometryData check lane }) := by
  unfold State.enterRun; rw [failedCheck_fails h]

end Sys2Proof.Machine

open Sys2Proof.Machine Sys2Proof.Safety

/-- Settles O45: the outcome of the checks decides, and a frame that is taken leaves what they read. -/
theorem setModeRunChecksGeometry : Obligations.SetModeRunChecksGeometry := by
  intro s hl hm
  have he : exec (.setMode 1) s = s.station (cmdSetMode 1) := rfl
  have hrun : cmdSetMode 1 s.frameDone = s.frameDone.enterRun := cmdSetMode_run hm
  have chars : s.frameDone.modeChars = [0, 0xFF] := by
    have : s.frameDone.mode = .setup := hm
    rw [State.modeChars, this]; rfl
  have passes : GeometryPasses s → GeometryPasses s.frameDone := fun h =>
    ⟨h.ordered, h.firstFar, h.endFar, h.residue, h.someLane⟩
  refine ⟨fun hp hg => ⟨?_, fun hn => ?_⟩, fun hp hg => ?_, fun check lane hf => ?_, geometry_passes_or_fails⟩
  · obtain ⟨d, hd⟩ := endTestStrokes_drives s.frameDone
    have hs : s.station (cmdSetMode 1) =
        .next (answered { s with drives := d, mc := { s.mc with mode := .run } } .ok [1, 0xFF]) :=
      State.station_answered hl (by rw [hrun, enterRun_passes (passes hp) hg, hd]; rfl) rfl
    refine ⟨_, he.trans hs, rfl, fun l hl => ?_, rfl, rfl, rfl, rfl, rfl, rfl⟩
    have hnd := endTestStrokes_not_driven (s := s.frameDone) hl
    rw [hd] at hnd
    exact hnd
  · refine he.trans (State.station_answered hl ?_ rfl)
    rw [hrun, enterRun_passes (passes hp) hg, endTestStrokes_none (s := s.frameDone) hn]; rfl
  · refine he.trans (State.station_answered hl ?_ rfl)
    rw [hrun, enterRun_unguarded (passes hp) hg, State.modeAnswer, chars]
  · have hc : cmdSetMode 1 s.frameDone = (s.frameDone,
        { status := .geometry, data := s.frameDone.geometryData check.toNat lane.toNat }) :=
      hrun.trans (enterRun_fails hf)
    rw [State.geometryData, chars, byteOf_toNat, byteOf_toNat] at hc
    cases hmode : Sys2Proof.Config.geometryModeFirst with
    | true => exact .inl (he.trans (State.station_answered hl (by rw [hc, hmode]; rfl) rfl))
    | false => exact .inr (he.trans (State.station_answered hl (by rw [hc, hmode]; rfl) rfl))
end

section
/-! Chapter 1 and section 7.2: what a P8 capture does at an armed channel (R7, R115, R116), down to the late fire (R119 to
R124). -/

namespace Sys2Proof.Machine

open Sys2Proof.Safety

variable {s : State} {l : Lane} {a : Armed} {t : Ticket}

/-! ### Changes that meet -/

theorem State.modChannel_modChannel (s : State) (l : Lane) (f g : Channel → Channel) :
    (s.modChannel l f).modChannel l g = s.modChannel l (fun c => g (f c)) := by
  simp only [State.modChannel, tableMod_tableMod]

/-- A record and a channel change independently. -/
theorem State.modTicket_modChannel (s : State) (k : Slot) (l : Lane) (f : Ticket → Ticket) (g : Channel → Channel) :
    (s.modChannel l g).modTicket k f = (s.modTicket k f).modChannel l g := rfl

/-- A change of a record that keeps the queue it waits in changes the record where it stands in its route queue. -/
theorem routeQueue_modTicket (s : State) (k : Slot) (l : Lane) {f : Ticket → Ticket}
    (h : ∀ u, (f u).queuedAt l = u.queuedAt l) :
    (s.modTicket k f).routeQueue l = (s.routeQueue l).map (fun u => if u.slot = k then f u else u) := by
  simp only [State.routeQueue, State.belt_modTicket, List.filter_map]
  congr 1
  apply List.filter_congr
  intro u _
  simp only [Function.comp_apply]; split
  · exact h u
  · rfl

end Sys2Proof.Machine

namespace Sys2Proof.Safety

open Sys2Proof.Machine

variable {s : State} {l : Lane} {a : Armed} {t : Ticket}

/-! ### The ticket armed alone -/

theorem ArmedAlone.mem (h : ArmedAlone s l a t) : t ∈ s.tt.belt ∧ t.queuedAt l = true :=
  mem_routeQueue.mp (by rw [h.queue]; exact List.mem_singleton_self t)

theorem ArmedAlone.ticketAt (h : ArmedAlone s l a t) : s.ticketAt? a.slot = some t := by
  rw [h.slot]; exact State.ticketAt?_of_mem h.slots h.mem.1

/-- A change of the armed ticket and its channel that leaves the ticket armed and its fire planned. -/
theorem ArmedAlone.change (h : ArmedAlone s l a t) (b : Armed) {f : Ticket → Ticket} (hb : b.slot = a.slot)
    (hl : b.lateLimit = none) (hs : ∀ u, (f u).slot = u.slot) (hst : ∀ u, (f u).state = u.state)
    (hd : ∀ u, (f u).laneDest = u.laneDest) :
    ArmedAlone ((s.modChannel l (fun c => { c with armed := some b })).modTicket a.slot f) l b (f t) where
  slots := (Steady.modTicket (s.modChannel l _) a.slot f hs).distinct h.slots
  channel := by simp
  notDeferred := hl
  queue := by
    rw [routeQueue_modTicket _ _ _ (fun u => by simp only [Ticket.queuedAt, hd, hst]), State.routeQueue_modChannel,
      h.queue]
    simp [h.slot]
  slot := by rw [hb, hs, h.slot]
  state := by rw [hst, h.state]

end Sys2Proof.Safety

namespace Sys2Proof.Machine

open Sys2Proof.Safety

variable {s : State} {l : Lane} {a : Armed} {t : Ticket}

/-! ### The recomputation of a lead (R116) -/

/-- An armed channel takes its new lead and planned fire count, which its ticket's record takes too. -/
def State.replan (s : State) (l : Lane) (a : Armed) (planned : Count) : State :=
  (s.modChannel l (fun c => { c with armed := some { a with lead := s.lead l, planned := planned } })).modTicket a.slot
    (fun u => { u with fireCount := some planned })

/-- The recomputation at an armed channel with no deferred fire. -/
theorem recomputeLane_armed (ha : (s.channel l).armed = some a) (hd : a.lateLimit = none)
    (ht : s.ticketAt? a.slot = some t) : s.recomputeLane l =
      if isReached s.bcu.count (plannedNow s l t) = true then
        ((s.replan l a (plannedNow s l t)).fire l true).attendLane l
      else s.replan l a (plannedNow s l t) := by
  unfold State.recomputeLane
  split
  · rename_i hn; rw [ha] at hn; cases hn
  · rename_i b hb
    obtain rfl : a = b := Option.some.inj (ha.symm.trans hb)
    split
    · rename_i u _ hu
      obtain rfl : t = u := Option.some.inj (ht.symm.trans hu)
      rfl
    · rename_i hn; rw [ht] at hn; cases hn
    · rename_i hn _; rw [hd] at hn; cases hn
    · rename_i hn _; rw [hd] at hn; cases hn

/-- With one lane armed, its recomputation is all that a capture brings about. -/
theorem recomputeLeads_one {u : State} (hl : s.recomputeLane l = u) (hs : ∀ m, m ≠ l → (s.channel m).armed = none)
    (hu : ∀ m, m ≠ l → u.channel m = s.channel m) : s.recomputeLeads = u := by
  have e : s.recomputeLeads = s.recomputeLane l :=
    State.forLanes_one s l (fun m hm => recomputeLane_unarmed (hs m hm))
      (fun m hm => recomputeLane_unarmed (by rw [hl, hu m hm]; exact hs m hm))
  rw [e, hl]

/-! ### Fires by mode and drive (R119) -/

/-- LATE is marked in the record of a ticket (R119). -/
def State.markLate (s : State) (t : Ticket) : State :=
  s.modTicket t.slot (fun u => { u with marks := { u.marks with late := true } })

theorem fire_late_idle (h : s.armedTicket? l = some t) (hm : s.mode = .run ∨ s.mode = .drain)
    (hd : (s.drive l).state = .idle) : s.fire l true = (s.markLate t).beginStroke l t := by
  unfold State.fire
  simp only [h, if_true, State.mode_modTicket, State.drive_modTicket]
  obtain hm | hm := hm <;> rw [hm, hd] <;> rfl

theorem fire_late_driven (h : s.armedTicket? l = some t) (hm : s.mode = .run ∨ s.mode = .drain) (hd : Driven s l) :
    s.fire l true = (s.markLate t).extendStroke l t := by
  unfold State.fire
  simp only [h, if_true, State.mode_modTicket, State.drive_modTicket]
  obtain hm | hm := hm <;> obtain hd | hd := hd <;> rw [hm, hd] <;> rfl

theorem fire_late_recover (h : s.armedTicket? l = some t) (hm : s.mode = .run ∨ s.mode = .drain)
    (hd : (s.drive l).state = .recover) : s.fire l true = (s.markLate t).deferFire l t := by
  unfold State.fire
  simp only [h, if_true, State.mode_modTicket, State.drive_modTicket]
  obtain hm | hm := hm <;> rw [hm, hd] <;> rfl

theorem fire_late_hold (h : s.armedTicket? l = some t) (hm : InHold s) :
    s.fire l true = (s.markLate t).missFire l t := by
  unfold State.fire
  simp only [h, if_true, State.mode_modTicket, State.drive_modTicket]
  obtain hm | hm := hm <;> rw [hm] <;> rfl

/-! ### The late fire of a replanned ticket (R116, R119) -/

/-- The record of a ticket whose new planned fire count is found reached. -/
def lateTicket (planned : Count) (t : Ticket) : Ticket :=
  { t with fireCount := some planned, marks := { t.marks with late := true } }

/-- The ticket is still armed alone after its replanning. -/
theorem armedTicket?_replan (h : ArmedAlone s l a t) (planned : Count) :
    (s.replan l a planned).armedTicket? l = some { t with fireCount := some planned } :=
  armedTicket?_of_alone (h.change { a with lead := s.lead l, planned := planned }
    (f := fun u => { u with fireCount := some planned }) rfl h.notDeferred (fun _ => rfl) (fun _ => rfl) (fun _ => rfl))

/-- The state in which the late fire is taken: channel and record replanned, and LATE marked. -/
theorem replan_markLate (h : ArmedAlone s l a t) (planned : Count) :
    (s.replan l a planned).markLate { t with fireCount := some planned } =
      (s.modTicket t.slot (lateTicket planned)).modChannel l (fun c =>
        { c with armed := some { a with lead := s.lead l, planned := planned } }) := by
  unfold State.replan State.markLate
  rw [h.slot, State.modTicket_modTicket]
  · rfl
  · exact fun _ => rfl

/-- The late fire taken: the ticket strokes, marked LATE, and the channel is free (R120). -/
theorem takeFire_late (h : ArmedAlone s l a t) (planned : Count) :
    ((s.replan l a planned).markLate { t with fireCount := some planned }).takeFire l
        { t with fireCount := some planned } =
      (s.modTicket t.slot (fun _ => strokingLate s l t)).modChannel l (fun c => { c with armed := none }) := by
  rw [replan_markLate h, State.takeFire, State.modChannel_modChannel, State.modTicket_modChannel,
    State.modTicket_modTicket _ _ (lateTicket planned) _ (fun _ => rfl), modTicket_congr h.slots h.mem.1 rfl]
  rfl

/-- A ticket that strokes waits in no route queue. -/
theorem attendLane_stroking (h : ArmedAlone s l a t) {u : State}
    (hu : u.tt.belt = (s.modTicket t.slot (fun _ => strokingLate s l t)).tt.belt) : u.attendLane l = u := by
  apply attendLane_empty
  have e : u.routeQueue l = (s.modTicket t.slot (fun _ => strokingLate s l t)).routeQueue l := by
    simp only [State.routeQueue, hu]
  rw [e]
  exact routeQueue_modTicket_out _ h.slots h.queue (by simp [Ticket.queuedAt, strokingLate, strokingNow])

/-- A replanned fire found reached begins a stroke (R120, R135). -/
theorem recomputeLane_begins (h : ArmedAlone s l a t) (hr : isReached s.bcu.count (plannedNow s l t) = true)
    (hm : s.mode = .run ∨ s.mode = .drain) (hd : (s.drive l).state = .idle) :
    s.recomputeLane l = ((s.modTicket t.slot (fun _ => strokingLate s l t)).modChannel l (fun _ =>
      { armed := none, strokeEnd := some (s.bcu.count + BitVec.ofNat 16 (t.span.getD 0)) })).modDrive l
        (fun _ => begun (s.lane l) .fire) := by
  rw [recomputeLane_armed h.channel h.notDeferred h.ticketAt, if_pos hr,
    fire_late_idle (armedTicket?_replan h _) hm hd]
  unfold State.beginStroke
  rw [takeFire_late h, State.modChannel_modChannel]
  exact attendLane_stroking h rfl

/-- A replanned fire found reached extends the stroke that runs (R121). -/
theorem recomputeLane_extends (h : ArmedAlone s l a t) (hr : isReached s.bcu.count (plannedNow s l t) = true)
    (hm : s.mode = .run ∨ s.mode = .drain) (hd : Driven s l) {e : Count} (he : (s.channel l).strokeEnd = some e) :
    s.recomputeLane l = (s.modTicket t.slot (fun _ => strokingLate s l t)).modChannel l (fun _ =>
      { armed := none, strokeEnd := some (laterCount e (s.bcu.count + BitVec.ofNat 16 (t.span.getD 0))) }) := by
  rw [recomputeLane_armed h.channel h.notDeferred h.ticketAt, if_pos hr,
    fire_late_driven (armedTicket?_replan h _) hm hd]
  have he' : (((s.replan l a (plannedNow s l t)).markLate
      { t with fireCount := some (plannedNow s l t) }).channel l).strokeEnd = some e := by
    rw [replan_markLate h]; simpa using he
  unfold State.extendStroke
  rw [he']
  dsimp only
  rw [takeFire_late h, State.modChannel_modChannel]
  exact attendLane_stroking h rfl

/-- The record of a ticket whose late fire is deferred (R119, R122). -/
def deferredTicket (planned : Count) (t : Ticket) : Ticket :=
  { t with fireCount := some planned, marks := { t.marks with late := true, deferred := true } }

/-- What the channel holds while the late fire is deferred (R122). -/
def deferredArmed (s : State) (l : Lane) (a : Armed) (t : Ticket) (c : WareClass) : Armed :=
  { a with
    lead := s.lead l, planned := plannedNow s l t
    lateLimit := some (t.nominal.getD 0 + BitVec.ofNat 16 (s.classRecord c).lateAllowance) }

theorem deferFire_late {c : WareClass} (hc : t.cls = some c) :
    ((s.modTicket t.slot (lateTicket (plannedNow s l t))).modChannel l (fun ch =>
      { ch with armed := some { a with lead := s.lead l, planned := plannedNow s l t } })).deferFire l
        { t with fireCount := some (plannedNow s l t) } =
      (s.modTicket t.slot (deferredTicket (plannedNow s l t))).modChannel l (fun ch =>
        { ch with armed := some (deferredArmed s l a t c) }) := by
  simp only [State.deferFire, State.lateAllowance, hc, State.modTicket_modChannel, State.modChannel_modChannel,
    State.modTicket_modTicket _ _ (lateTicket (plannedNow s l t)) _ (fun _ => rfl)]
  rfl

/-- A replanned fire found reached in RECOVER is deferred to the ticket's late limit (R122). -/
theorem recomputeLane_defers (h : ArmedAlone s l a t) (hr : isReached s.bcu.count (plannedNow s l t) = true)
    (hm : s.mode = .run ∨ s.mode = .drain) (hd : (s.drive l).state = .recover) {c : WareClass} (hc : t.cls = some c) :
    s.recomputeLane l = (s.modTicket t.slot (deferredTicket (plannedNow s l t))).modChannel l (fun ch =>
      { ch with armed := some (deferredArmed s l a t c) }) := by
  rw [recomputeLane_armed h.channel h.notDeferred h.ticketAt, if_pos hr,
    fire_late_recover (armedTicket?_replan h _) hm hd, replan_markLate h, deferFire_late hc]
  refine attendLane_armed _ l (t := deferredTicket (plannedNow s l t) t) (rest := []) ?_
    (congrArg Channel.armed (State.channel_modChannel_self _ l _)) h.slot
  rw [State.routeQueue_modChannel, routeQueue_modTicket _ _ _ (f := deferredTicket _) (fun _ => rfl), h.queue]
  simp

/-- A late fire in HOLD, with the end window ahead: the ticket runs off MISSED and its commitment is released (R124). -/
theorem missFire_late (h : ArmedAlone s l a t) (hw : isReached s.bcu.count (endBoundsOf s t).2 = false)
    (planned : Count) (b : Armed) :
    ((s.modTicket t.slot (lateTicket planned)).modChannel l (fun ch => { ch with armed := some b })).missFire l
        { t with fireCount := some planned } =
      (((s.release l).modChannel l (fun ch => { ch with armed := none })).countRunOff .missed).modTicket t.slot
        (fun _ => ranOff s .missed (lateTicket planned t)) := by
  obtain ⟨hmem, hq⟩ := h.mem
  have hc : Ticket.commitment { t with fireCount := some planned } = some l := by
    unfold Ticket.commitment
    simp only [h.state]
    exact (queuedAt_iff.mp hq).1
  unfold State.missFire State.releaseOf
  rw [hc, State.modChannel_modChannel]
  have hd : SlotsDistinct (s.modTicket t.slot (lateTicket planned)) :=
    (Steady.modTicket s t.slot (lateTicket planned) (fun _ => rfl)).distinct h.slots
  have hm : lateTicket planned t ∈ (s.modTicket t.slot (lateTicket planned)).tt.belt :=
    List.mem_map.mpr ⟨t, hmem, if_pos rfl⟩
  have key := sendToRunOff_ahead (t := lateTicket planned t)
    (s := ((s.modTicket t.slot (lateTicket planned)).modChannel l (fun ch => { ch with armed := none })).release l)
    hd hm .missed hw
  refine key.trans ?_
  show ((((s.release l).modChannel l (fun ch => { ch with armed := none })).countRunOff .missed).modTicket t.slot
    (lateTicket planned)).modTicket t.slot (fun _ => ranOff s .missed (lateTicket planned t)) = _
  rw [State.modTicket_modTicket _ _ (lateTicket planned) _ (fun _ => rfl)]

/-- A replanned fire found reached in HOLD, with the end window ahead, is missed (R124). -/
theorem recomputeLane_misses (h : ArmedAlone s l a t) (hr : isReached s.bcu.count (plannedNow s l t) = true)
    (hm : InHold s) (hw : isReached s.bcu.count (endBoundsOf s t).2 = false) : s.recomputeLane l =
      (((s.release l).modChannel l (fun ch => { ch with armed := none })).countRunOff .missed).modTicket t.slot
        (fun _ => ranOff s .missed (lateTicket (plannedNow s l t) t)) := by
  rw [recomputeLane_armed h.channel h.notDeferred h.ticketAt, if_pos hr,
    fire_late_hold (armedTicket?_replan h _) hm, replan_markLate h, missFire_late h hw]
  apply attendLane_empty
  exact routeQueue_modTicket_out (s := s) (fun _ => ranOff s .missed (lateTicket (plannedNow s l t) t)) h.slots h.queue
    (by simp [Ticket.queuedAt, ranOff])

end Sys2Proof.Machine

open Sys2Proof.Machine Sys2Proof.Safety

/-- Settles O10: the capture is taken apart into P8 and the recomputation of leads, and that into the one armed channel's
turn, by what the late fire finds. -/
theorem p8CaptureRecomputesLead : Obligations.P8CaptureRecomputesLead := by
  intro s v hr hv
  have he : exec .p8Capture s = .next (s.withP8 v).recomputeLeads := by
    have e : exec .p8Capture s = s.event State.takeCapture := rfl
    rw [e, State.event_running hr, takeCapture_of_some hv]
  rw [he]
  refine ⟨⟨_, rfl, ?_⟩, fun hn => ?_, ?_, ?_⟩
  · have k := Steady.recomputeLeads (s.withP8 v)
    exact ⟨k.bcu, k.cat, k.geo, k.rli, k.em, k.carrier⟩
  · rw [recomputeLeads_unarmed (s := s.withP8 v) hn]; rfl
  · rintro l a t ha hd ht hothers _ _ rfl rfl hahead
    have hl : (s.withP8 v).recomputeLane l = (s.withP8 v).replan l a (plannedNow (s.withP8 v) l t) := by
      rw [recomputeLane_armed (s := s.withP8 v) ha hd ht]
      exact if_neg (Bool.not_eq_true _ |>.mpr hahead)
    rw [recomputeLeads_one hl hothers (fun m hm => ?_)]
    · rfl
    · exact (State.channel_modChannel _ _ _ _).trans (if_neg hm)
  · rintro l a t _ _ _ _ h hothers rfl rfl rfl hreached rfl
    have hp : ArmedAlone (s.withP8 v) l a t := ⟨h.slots, h.channel, h.notDeferred, h.queue, h.slot, h.state⟩
    refine ⟨fun hm => ⟨fun hd => ?_, fun e hd hse => ?_, fun c hd hc => ?_⟩, fun hm hw => ?_⟩
    · rw [recomputeLeads_one (recomputeLane_begins hp hreached hm hd) hothers (fun m hmne => ?_)]
      · rfl
      · exact (State.channel_modChannel _ _ _ _).trans (if_neg hmne)
    · rw [recomputeLeads_one (recomputeLane_extends hp hreached hm hd hse) hothers (fun m hmne => ?_)]
      · rfl
      · exact (State.channel_modChannel _ _ _ _).trans (if_neg hmne)
    · rw [recomputeLeads_one (recomputeLane_defers hp hreached hm hd hc) hothers (fun m hmne => ?_)]
      · rfl
      · exact (State.channel_modChannel _ _ _ _).trans (if_neg hmne)
    · rw [recomputeLeads_one (recomputeLane_misses hp hreached hm hw) hothers (fun m hmne => ?_)]
      · rfl
      · exact (State.channel_modChannel _ _ _ _).trans (if_neg hmne)
end

section
/-! What a step keeps, in general. A property of the tickets, the lanes, the drives, the mode, the guard, a reset in progress
and the ticket under the eye is kept by every step as soon as the operations that change these keep it. Each operation is
named once, in `OwnKept` for the part's own course and in `StepKept` for what comes from outside; the reaches, the timers,
the settling, the characters and the rows of the table follow. -/

namespace Sys2Proof.Machine

/-- Two states agree on the tickets, the lanes, the drives, the mode, the guard, a reset in progress and the ticket under
the eye. -/
structure Alike (s t : State) : Prop where
  inReset : t.inReset = s.inReset := by rfl
  belt : t.tt.belt = s.tt.belt := by rfl
  lanes : t.lanes = s.lanes := by rfl
  drives : t.drives = s.drives := by rfl
  mc : t.mc = s.mc := by rfl
  underEye : t.ind.underEye = s.ind.underEye := by rfl

/-- A record changed with its slot, its state and its destination kept. -/
structure SamePlace (t u : Ticket) : Prop where
  slot : u.slot = t.slot := by rfl
  state : u.state = t.state := by rfl
  dest : u.dest = t.dest := by rfl

/-- What the part's own course changes keeps a property. -/
structure OwnKept (P : State → Prop) : Prop where
  alike {s t : State} : P s → Alike s t → P t
  elapse {s : State} (n : Nat) : P s → P (s.elapse n)
  record {s : State} (k : Slot) (f : Ticket → Ticket) : (∀ t, SamePlace t (f t)) → P s → P (s.modTicket k f)
  clearEye {s : State} : P s → P { s with ind := { s.ind with underEye := none, blockedLength := 0 } }
  resolve {s : State} (k : Slot) (c : Cause) : P s → P (s.resolve k c)
  recomputeLeads {s : State} : P s → P s.recomputeLeads
  takeDueFire {s : State} (l : Lane) : P s → P (s.takeDueFire l)
  strokeEnds {s : State} (l : Lane) : P s → P (s.strokeEnds l)
  closeConfirm {s : State} (k : Slot) : P s → P (s.closeConfirm k)
  expireEnd {s : State} (k : Slot) : P s → P (s.expireEnd k)
  leavePull {s : State} (l : Lane) : s.timeLeft (.pull l) = some 0 → P s → P (s.leavePull l)
  capStroke {s : State} (l : Lane) : s.timeLeft (.cap l) = some 0 → P s → P (s.capStroke l)
  endRecovery {s : State} (l : Lane) : s.timeLeft (.recovery l) = some 0 → P s → P (s.endRecovery l)
  takeTestEnd {s : State} (l : Lane) : s.timeLeft (.testEnd l) = some 0 → P s → P (s.takeTestEnd l)
  softReset {s : State} : P s → P s.softReset

/-- Whichever way a choice goes. -/
theorem ite_keeps {P : State → Prop} {c : Prop} [Decidable c] {a b : State} (ha : P a) (hb : P b) :
    P (if c then a else b) := by
  split
  · exact ha
  · exact hb

namespace OwnKept

variable {P : State → Prop} {s : State} (k : OwnKept P)

include k

/-! ### Reaches (R5) -/

theorem takeCapture (h : P s) : P s.takeCapture := by
  unfold State.takeCapture; split
  · exact h
  · exact k.recomputeLeads (k.alike h {})

theorem stopBelt (h : P s) : P s.stopBelt := k.recomputeLeads (k.alike (k.takeCapture h) {})

theorem markOverlength (h : P s) : P s.markOverlength := by
  unfold State.markOverlength; split
  · exact h
  · exact k.alike (k.record _ (fun t => { t with overlength := true }) (fun _ => {}) h) {}

theorem endUnderEye (n : Nat) (h : P s) : P (s.endUnderEye n) := by
  unfold State.endUnderEye; split
  · exact h
  · have cleared := fun j => k.record j (fun t => { t with length := some n }) (fun _ => {}) (k.clearEye h)
    dsimp only; split
    · exact cleared _
    · have opened := fun j w => k.record j (fun t => { t with windowEnd := some w }) (fun _ => {}) (cleared j)
      exact ite_keeps (k.resolve _ _ (cleared _)) (ite_keeps (k.resolve _ _ (opened _ _)) (opened _ _))

theorem takeReach (r : CountReach) (h : P s) : P (s.takeReach r) := by
  cases r with
  | capture => exact k.takeCapture h
  | holdLimit => exact ite_keeps (k.endUnderEye _ h) h
  | readWindow j =>
    show P (s.expireReadWindow j)
    unfold State.expireReadWindow; split
    · exact h
    · exact ite_keeps (k.resolve _ _ h) h
  | fire l => exact ite_keeps (k.takeDueFire l h) h
  | strokeEnd l => exact ite_keeps (k.strokeEnds l h) h
  | confirmClose j =>
    show P (s.onConfirmClose j)
    unfold State.onConfirmClose; split
    · exact h
    · exact ite_keeps (k.closeConfirm j h) h
  | endWindow j => exact ite_keeps (k.expireEnd j h) h

theorem settle (h : P s) : P s.settle :=
  settle_keeps (P := P) (fun _ r hu _ => k.takeReach r hu) (fun _ hu => k.alike hu {}) s h

theorem pulse (h : P s) : P s.pulse := by
  unfold State.pulse; split
  · exact k.alike h {}
  · exact ite_keeps (k.markOverlength (k.alike h {})) (k.alike h {})

/-! ### Timers and the course of time -/

theorem endReply (h : P s) : P s.endReply := by
  unfold State.endReply; split
  · exact h
  · exact ite_keeps (k.softReset (k.alike h {})) (k.alike h {})

theorem onTimer (t : OwnTimer) (h : P s) : P (s.onTimer t) := by
  unfold State.onTimer; split
  swap
  · exact h
  rename_i hd
  cases t with
  | stop => exact k.stopBelt h
  | triggerSent => exact k.alike h {}
  | readerGap => exact k.alike h {}
  | pull l => exact k.leavePull l hd h
  | cap l => exact k.capStroke l hd h
  | recovery l => exact k.endRecovery l hd h
  | testEnd l => exact k.takeTestEnd l hd h
  | frameGap => exact k.alike h {}
  | quiet => exact k.alike h {}
  | replySent => exact k.endReply h

theorem beginTrigger (h : P s) : P s.beginTrigger := ite_keeps (k.alike h {}) h

theorem takeOwn (e : OwnEvent) (h : P s) : P (s.takeOwn e) := by
  cases e with
  | reach r => exact k.takeReach r h
  | triggerSend => exact k.beginTrigger h
  | timer t => exact k.onTimer t h

theorem runOn (n : Nat) (h : P s) : P (s.runOn n) :=
  State.passClocks_keeps (P := P) (fun _ n hu => k.elapse n hu) (fun _ e hu => k.takeOwn e hu)
    (fun _ hu => k.alike hu {}) _ n s h

theorem awaitTimer (t : OwnTimer) (h : P s) : P (s.awaitTimer t) := by
  unfold State.awaitTimer; split
  · exact h
  · exact k.onTimer t (k.runOn _ h)

theorem softResetComes (h : P s) : P s.softResetComes := by
  unfold State.softResetComes; split
  · exact ite_keeps (k.awaitTimer _ (k.awaitTimer _ h)) h
  · exact ite_keeps (k.awaitTimer _ h) h
  · exact h

end OwnKept

/-- What commands and inputs change keeps a property too. -/
structure StepKept (P : State → Prop) : Prop extends OwnKept P where
  held (s : State) (c : ResetCause) (x : Nat) : P (s.held c x)
  released {s : State} {c : ResetCause} (g : Guard) : s.inReset = some c → P s →
    P { s with inReset := none, mc := { s.mc with guard := g, cause := c } }
  openTicket {s : State} {j : Slot} (tag : Tag) : s.mode ≠ .setup → s.freeSlot? = some j → P s → P (s.openTicket j tag)
  retire {s : State} (j : Slot) (o : TicketOutcome) : P s → P (s.retire j o)
  counters {s : State} (l : Lane) (f : LaneRecord → LaneRecord) :
    (∀ r, f r = { r with failures := (f r).failures, strays := (f r).strays }) → P s → P (s.modLane l f)
  addFill {s : State} (l : Lane) : P s → P (s.addFill l)
  guardOpens {s : State} : P s → P s.guardOpens
  guardCloses {s : State} : P s → P { s with mc := { s.mc with guard := .closed } }
  setMode {s : State} (m : Byte) : P s → P (cmdSetMode m s).1
  hold {s : State} : P s → P (cmdHold s).1
  resume {s : State} : P s → P (cmdResume s).1
  writeLanes {s : State} (a : Byte) (rs : List LaneWrite) : P s → P (cmdWriteLanes a rs s).1
  testStroke {s : State} (l d : Byte) : P s → P (cmdTestStroke l d s).1
  openLane {s : State} (l : Lane) : P s → P (s.openLane l)
  closeLane {s : State} (l : Lane) : P s → P (s.changeLaneState l .closed)
  setCapacity {s : State} (l : Lane) (n : Nat) : n ≤ 999 → P s → P (s.setCapacity l n)
  exchangeRack {s : State} (l : Lane) : P s → P (s.exchangeRack l)
  redirect {s : State} (a b c : Byte) : P s → P (cmdRedirect a b c s).1
  pullTicket {s : State} (t : Ticket) : P s → P (s.pullTicket t)

namespace StepKept

variable {P : State → Prop} {s : State} (k : StepKept P)

include k

/-! ### Eyes and the reader line -/

theorem laneEyeLeads (l : Lane) (h : P s) : P (s.laneEyeLeads l) := by
  have sighted : P (s.sightLane l) := by
    unfold State.sightLane; split
    · exact k.addFill l (k.counters l _ (fun _ => rfl) h)
    · exact k.addFill l (k.counters l _ (fun _ => rfl) (k.retire _ _ h))
  unfold State.laneEyeLeads; split
  · exact h
  all_goals exact sighted

theorem endEyeLeads (h : P s) : P s.endEyeLeads := by
  have sighted : ∀ u : State, P u → P u.sightEnd := by
    intro u hu
    unfold State.sightEnd; split
    · exact k.retire _ _ hu
    · exact k.alike hu {}
  have blocked : P { s with em := { s.em with eye := .blocked } } := k.alike h {}
  unfold State.endEyeLeads; split
  · exact h
  · dsimp only; split
    · exact blocked
    all_goals exact sighted _ blocked

theorem inductionTrails (h : P s) : P s.inductionTrails := by
  have cleared : P { s with ind := { s.ind with eye := .clear } } := k.alike h {}
  unfold State.inductionTrails; split
  · exact h
  · dsimp only; split
    · exact cleared
    all_goals exact k.endUnderEye _ cleared

theorem induct (h : P s) : P s.induct := by
  unfold State.induct; split
  · exact k.alike (k.clearEye h) {}
  · have advanced : P { s with ind := { s.ind with nextTag := s.ind.nextTag + 1 } } := k.alike h {}
    have opens : ∀ {u : State}, P u → P (match u.mode, u.freeSlot? with
        | .setup, _ => u
        | _, none => u
        | _, some j => u.openTicket j s.ind.nextTag) := by
      intro u hu; split
      · exact hu
      · exact hu
      · rename_i hf hm; exact k.openTicket _ hm hf hu
    dsimp only
    generalize ({ s with ind := { s.ind with nextTag := s.ind.nextTag + 1 } } : State) = u at advanced ⊢
    cases u.pendingWithTag? s.ind.nextTag with
    | none => exact opens advanced
    | some t => exact opens (k.resolve _ _ advanced)

theorem inductionLeads (h : P s) : P s.inductionLeads := by
  have blocked : P { s with ind := { s.ind with eye := .blocked } } := k.alike h {}
  unfold State.inductionLeads; split
  · exact h
  · dsimp only; split
    · exact blocked
    all_goals exact k.induct blocked

theorem report (tag : Tag) (p f st : Byte) (h : P s) : P (s.report tag p f st) := by
  have stray : P { s with rli := { s.rli with strays := satInc counterTop s.rli.strays } } := k.alike h {}
  unfold State.report; dsimp only; split
  · exact stray
  · have noted := fun j w => k.record j
      (fun t => { t with quality := some (st.truncate 4), ware := w }) (fun _ => {}) h
    refine ite_keeps stray (ite_keeps (ite_keeps ?_ (k.resolve _ _ (noted _ _))) (noted _ _))
    exact k.record _ (fun t => { t with readHeld := true }) (fun _ => {}) (noted _ _)

theorem readerReceives (c : LineChar) (h : P s) : P (s.readerReceives c) := by
  have abandoned : P s.abandonReport := k.alike h {}
  have marked : ∀ v, P (s.readerMarked v) := by
    intro v
    unfold State.readerMarked
    cases s.rli.assembly with
    | waitHeader => exact ite_keeps (k.alike h {}) h
    | waitPattern _ => exact ite_keeps (k.alike abandoned {}) abandoned
    | waitForm _ _ => exact ite_keeps (k.alike abandoned {}) abandoned
    | waitStatus _ _ _ => exact ite_keeps (k.alike abandoned {}) abandoned
  have data : ∀ v, P (s.readerData v) := by
    intro v
    unfold State.readerData; split
    · exact h
    · exact k.alike h {}
    · exact k.alike h {}
    · exact k.report _ _ _ _ (k.alike h {})
  exact ite_keeps (ite_keeps (marked _) (data _)) (k.alike h {})

/-! ### Commands -/

omit k in
/-- Whichever way a test of a command goes. -/
theorem answer_ite {P : State → Prop} {c : Prop} [Decidable c] {a b : State × Answer} (ha : P a.1) (hb : P b.1) :
    P (if c then a else b).1 := by
  split
  · exact ha
  · exact hb

omit k in
/-- A lane command is refused, or does what it does at its lane. -/
theorem onLane (h : P s) (b : Byte) {f : Lane → State × Answer} (hf : ∀ l, P (f l).1) : P (s.onLane b f).1 := by
  unfold State.onLane; split
  · exact hf _
  · exact h

theorem blockWrite {α β : Type} {n : Nat} (first : Byte) (rs : List α) (f : α → Option β) (entry : β → α → Bool)
    (v : Vector β n) {c : Vector β n → Catalogue} (h : P s) :
    P (s.blockWrite first rs f entry v (fun v => { s with cat := c v })).1 := by
  refine answer_ite h (answer_ite h ?_)
  split
  · exact h
  · exact k.alike h {}

omit k in
theorem blockRead {α : Type} {n : Nat} (first count : Byte) (v : Vector α n) (chars : α → List Byte) (h : P s) :
    P (s.blockRead first count v chars).1 := answer_ite h (answer_ite h h)

theorem writeSettings (r : SettingsWrite) (h : P s) : P (cmdWriteSettings r s).1 := by
  unfold cmdWriteSettings; split
  · exact h
  · exact h
  · exact k.alike h {}

theorem writeGeometry (r : GeometryRecord) (h : P s) : P (cmdWriteGeometry r s).1 :=
  answer_ite h (answer_ite h (ite_keeps (k.stopBelt (k.alike h {})) (k.alike h {})))

theorem openLaneCommand (b : Byte) (h : P s) : P (cmdOpenLane b s).1 := by
  refine onLane h b (fun l => answer_ite h ?_)
  split
  · exact k.openLane l h
  · exact k.openLane l h
  · exact h
  · exact h

theorem clearTallies (h : P s) : P (cmdClearTallies s).1 :=
  State.forLanes_keeps (P := P) _ (k.alike h {}) (fun _ l hu => k.counters l _ (fun _ => rfl) hu)

theorem pull (a b : Byte) (h : P s) : P (cmdPull a b s).1 := by
  refine answer_ite h (answer_ite h ?_)
  split
  · exact h
  · exact answer_ite h (k.pullTicket _ h)

/-- Every command keeps the property. -/
theorem everyCommand : EveryCommand (fun f => ∀ {u : State}, P u → P (f u).1) where
  unknown h := h
  readStatus h := h
  ackAttention _ _ h := k.alike h {}
  setMask _ _ h := k.alike h {}
  readReaderCounters h := h
  setMode m _ h := k.setMode m h
  hold h := k.hold h
  resume h := k.resume h
  softReset h := h
  writeGeometry r _ h := k.writeGeometry r h
  writeLanes a rs _ h := k.writeLanes a rs h
  writeCarrier _ _ h := answer_ite h (answer_ite h (k.alike h {}))
  testStroke l d _ h := k.testStroke l d h
  openLane b _ h := k.openLaneCommand b h
  closeLane b _ h := onLane h b (fun l => k.closeLane l h)
  setCapacity b _ _ h := onLane h b (fun l => k.setCapacity l _ (Nat.min_le_right _ _) h)
  rackExchanged b _ h := onLane h b (fun l => k.exchangeRack l h)
  readLanes _ _ _ h := answer_ite h (answer_ite h h)
  writePatterns _ _ _ h := k.blockWrite _ _ _ _ _ h
  writeForms _ _ _ h := k.blockWrite _ _ _ _ _ h
  writeClasses _ _ _ h := k.blockWrite _ _ _ _ _ h
  writeRoutes _ _ _ h := k.blockWrite _ _ _ _ _ h
  writeSettings r _ h := k.writeSettings r h
  readPatterns _ _ _ h := blockRead _ _ _ _ h
  readForms _ _ _ h := blockRead _ _ _ _ h
  readClasses _ _ _ h := blockRead _ _ _ _ h
  readRoutes _ _ _ h := blockRead _ _ _ _ h
  readSettings h := h
  readTicket a b u h := by
    refine answer_ite h ?_
    split <;> exact h
  findTickets a b c u h := by
    refine answer_ite h ?_
    split <;> exact h
  redirect a b c _ h := k.redirect a b c h
  pull a b _ h := k.pull a b h
  readTallies h := h
  clearTallies h := k.clearTallies h
  readEndMonitor h := h

/-! ### Frames and characters -/

theorem replyDue (a : Answer) (h : P s) : P (s.replyDue a) := ite_keeps h (k.alike h {})

theorem cancelReply (h : P s) : P s.cancelReply := by
  unfold State.cancelReply; split
  · exact h
  · exact ite_keeps (k.softReset h) (k.alike h {})

theorem takeCommand {f : State → State × Answer} (hf : ∀ {u}, P u → P (f u).1) (h : P s) : P (s.takeCommand f) :=
  k.replyDue _ (hf (k.alike h {}))

theorem takeBroadcast {f : State → State × Answer} (hf : ∀ {u}, P u → P (f u).1) (h : P s) : P (s.takeBroadcast f) :=
  hf (k.alike h {})

theorem setFrame (f : FrameState) (b : Bool) (h : P s) : P (s.setFrame f b) := k.alike h {}

theorem lineMarked (v : Byte) (h : P s) : P (s.lineMarked v) := by
  have c := k.cancelReply h
  exact ite_keeps (k.setFrame _ _ c) (ite_keeps (k.setFrame _ _ c) (k.setFrame _ _ c))

theorem refuseFrame (st : Status) (h : P s) : P (s.refuseFrame st) := k.replyDue _ (k.setFrame _ _ h)

theorem commandChar (code : Byte) (h : P s) : P (s.commandChar code) := by
  unfold State.commandChar; split
  · split
    · exact k.takeBroadcast k.everyCommand.hold h
    · exact k.takeBroadcast k.everyCommand.resume h
    · exact k.setFrame _ _ h
  · split
    · exact k.refuseFrame _ h
    · exact ite_keeps (k.takeCommand (k.everyCommand.commandOf _ _) h) (k.setFrame _ _ h)

theorem paramChar (code : Byte) (ps : List Byte) (v : Byte) (h : P s) : P (s.paramChar code ps v) := by
  unfold State.paramChar; split
  · exact k.setFrame _ _ h
  · exact ite_keeps (k.refuseFrame _ h)
      (ite_keeps (k.setFrame _ _ h) (k.takeCommand (k.everyCommand.commandOf _ _) h))

theorem lineData (v : Byte) (h : P s) : P (s.lineData v) := by
  have quiet : P { s with sli := { s.sli with quietTimer := 0 } } := k.alike h {}
  unfold State.lineData; dsimp only; split
  · exact quiet
  · exact quiet
  · exact k.commandChar v quiet
  · exact k.paramChar _ _ v quiet

theorem lineReceives (c : LineChar) (h : P s) : P (s.lineReceives c) :=
  ite_keeps (ite_keeps (k.lineMarked _ h) (k.lineData _ h)) (k.cancelReply (k.alike h {}))

/-! ### The rows of the table -/

omit k in
/-- An event of a running part is taken, or the part stays as it is. -/
theorem event {f : State → State} {t : State} (h : P s) (ht : s.event f = .next t) (hf : P (f s)) : P t := by
  unfold State.event at ht; split at ht
  · exact Host.Outcome.next.inj ht ▸ h
  · exact Host.Outcome.next.inj ht ▸ hf

theorem station {f : State → State × Answer} {t : State} (h : P s) (ht : s.station f = .next t)
    (hf : ∀ {u}, P u → P (f u).1) : P t := by
  obtain e | e := State.station_cases ht <;> rw [e]
  · exact h
  · exact k.takeCommand hf (k.cancelReply h)

theorem broadcasting {f : State → State × Answer} {t : State} (h : P s) (ht : s.broadcasting f = .next t)
    (hf : ∀ {u}, P u → P (f u).1) : P t :=
  event h ht (ite_keeps h (k.takeBroadcast hf (k.cancelReply h)))

theorem dataRow (v : Byte) {t : State} (h : P s) (ht : s.dataRow v = .next t) : P t :=
  event h ht (ite_keeps h (k.lineData v h))

/-- Every row of the table keeps the property. -/
theorem exec (i : Instr) {t : State} (h : P s) (ht : exec i s = .next t) : P t := by
  unfold Machine.exec at ht
  cases i with
  | powerOnReset => exact Host.Outcome.next.inj ht ▸ k.held s _ _
  | pinReset =>
    simp only [execPinReset] at ht
    split at ht
    · exact Host.Outcome.next.inj ht ▸ h
    · exact Host.Outcome.next.inj ht ▸ k.held s _ _
  | releaseOfResetN pins =>
    simp only [execReleaseOfResetN] at ht
    split at ht
    · exact Host.Outcome.next.inj ht ▸ h
    · rename_i hr
      exact Host.Outcome.next.inj ht ▸ k.alike (k.released pins.guard hr h) {}
  | encoderPulse => exact event h ht (k.pulse (k.settle h))
  | p8Capture => exact event h ht (k.takeCapture h)
  | stopTimeExpiry => exact event h ht (k.awaitTimer _ h)
  | inductionLeadingEdge => exact event h ht (k.inductionLeads h)
  | inductionTrailingEdge => exact event h ht (k.inductionTrails h)
  | overlength => exact event h ht (k.markOverlength h)
  | holdLimitReached => exact event h ht (k.takeReach .holdLimit h)
  | triggerSend => exact event h ht (k.beginTrigger h)
  | triggerSent => exact event h ht (k.awaitTimer _ h)
  | readerCharacter c => exact event h ht (k.readerReceives c h)
  | readerGapTimeout => exact event h ht (k.awaitTimer _ h)
  | readWindowExpiry j => exact event h ht (k.takeReach (.readWindow j) h)
  | fireDue l => exact event h ht (k.takeReach (.fire l) h)
  | strokeEndCountReached l => exact event h ht (k.takeReach (.strokeEnd l) h)
  | pullTimeElapsed l => exact event h ht (k.awaitTimer _ h)
  | onTimeCap l => exact event h ht (k.awaitTimer _ h)
  | recoveryTimeElapsed l => exact event h ht (k.awaitTimer _ h)
  | testEnd l => exact event h ht (k.awaitTimer _ h)
  | carrierPeriodStart => exact event h ht (k.runOn _ h)
  | laneEyeLeadingEdge l => exact event h ht (k.laneEyeLeads l h)
  | laneEyeTrailingEdge l => exact Host.Outcome.next.inj ht ▸ h
  | confirmWindowClose j => exact event h ht (k.takeReach (.confirmClose j) h)
  | endEyeLeadingEdge => exact event h ht (k.endEyeLeads h)
  | endEyeTrailingEdge => exact event h ht (k.alike h {})
  | endWindowExpiry j => exact event h ht (k.takeReach (.endWindow j) h)
  | guardOpening => exact event h ht (k.guardOpens h)
  | guardClosing => exact event h ht (k.guardCloses h)
  | addressCharacter v => exact event h ht (ite_keeps h (k.lineMarked v h))
  | unknownCommand v => exact k.dataRow v h ht
  | lineError c => exact event h ht (ite_keeps h (k.lineReceives c h))
  | frameGapTimeout => exact event h ht (k.awaitTimer _ h)
  | replyStart => exact event h ht (k.awaitTimer _ h)
  | replyEnd => exact event h ht (k.awaitTimer _ h)
  | softResetEffect => exact event h ht (k.softResetComes h)
  | readStatus => exact k.station h ht k.everyCommand.readStatus
  | ackAttention w => exact k.station h ht (k.everyCommand.ackAttention w)
  | setMask w => exact k.station h ht (k.everyCommand.setMask w)
  | readReaderCounters => exact k.station h ht k.everyCommand.readReaderCounters
  | setMode m => exact k.station h ht (k.everyCommand.setMode m)
  | hold b =>
    cases b with
    | true => exact k.broadcasting h ht k.everyCommand.hold
    | false => exact k.station h ht k.everyCommand.hold
  | resume b =>
    cases b with
    | true => exact k.broadcasting h ht k.everyCommand.resume
    | false => exact k.station h ht k.everyCommand.resume
  | softReset => exact k.station h ht k.everyCommand.softReset
  | writeGeometry r => exact k.station h ht (k.everyCommand.writeGeometry r)
  | writeLanes a rs => exact k.station h ht (k.everyCommand.writeLanes a rs)
  | writeCarrier c => exact k.station h ht (k.everyCommand.writeCarrier c)
  | testStroke l d => exact k.station h ht (k.everyCommand.testStroke l d)
  | openLane l => exact k.station h ht (k.everyCommand.openLane l)
  | closeLane l => exact k.station h ht (k.everyCommand.closeLane l)
  | setCapacity l w => exact k.station h ht (k.everyCommand.setCapacity l w)
  | rackExchanged l => exact k.station h ht (k.everyCommand.rackExchanged l)
  | readLanes a n => exact k.station h ht (k.everyCommand.readLanes a n)
  | writePatterns a rs => exact k.station h ht (k.everyCommand.writePatterns a rs)
  | writeForms a rs => exact k.station h ht (k.everyCommand.writeForms a rs)
  | writeClasses a rs => exact k.station h ht (k.everyCommand.writeClasses a rs)
  | writeRoutes a rs => exact k.station h ht (k.everyCommand.writeRoutes a rs)
  | writeCatalogueSettings r => exact k.station h ht (k.everyCommand.writeSettings r)
  | readPatterns a n => exact k.station h ht (k.everyCommand.readPatterns a n)
  | readForms a n => exact k.station h ht (k.everyCommand.readForms a n)
  | readClasses a n => exact k.station h ht (k.everyCommand.readClasses a n)
  | readRoutes a n => exact k.station h ht (k.everyCommand.readRoutes a n)
  | readCatalogueSettings => exact k.station h ht k.everyCommand.readSettings
  | readTicket a b => exact k.station h ht (k.everyCommand.readTicket a b)
  | findTickets a b c => exact k.station h ht (k.everyCommand.findTickets a b c)
  | redirect a b c => exact k.station h ht (k.everyCommand.redirect a b c)
  | pull a b => exact k.station h ht (k.everyCommand.pull a b)
  | readTallies => exact k.station h ht k.everyCommand.readTallies
  | clearTallies => exact k.station h ht k.everyCommand.clearTallies
  | readEndMonitor => exact k.station h ht k.everyCommand.readEndMonitor
  | commandCharacter v => exact k.dataRow v h ht
  | parameterCharacter v => exact k.dataRow v h ht
  | badLength v => exact k.dataRow v h ht
  | dataCharacterDuringWait v => exact k.dataRow v h ht
  | activePortionEnd l => exact event h ht (ite_keeps (k.runOn _ h) h)

/-- A step keeps the property. -/
theorem step {t : State} (h : P s) (ht : step s = .next t) : P t :=
  step_keeps (P := P) (fun _ _ hu => k.alike hu {}) (fun _ hu => k.alike hu {}) (fun _ hu => k.elapse 1 hu)
    (fun i _ _ hu ht => k.exec i hu ht) h ht

end StepKept
end Sys2Proof.Machine
end

section
/-! Route queues hold tickets only while their lane is OPEN, no ticket is live in SETUP (sections 2.5, 6.2, 10.3, 10.4), and
the ticket under the eye is live (R29, R42): what the operations on tickets, channels and drives keep. -/

namespace Sys2Proof.Safety

open Sys2Proof.Machine

/-- The invariants of the Ticket Table: that of the queues as far as `queued` asks for it, that of the eye as far as `eyed`
does. Within a re-resolution pass the tickets whose turn is still to come wait at a lane that is not OPEN (R91): `waits`
tells which. -/
structure TableSound (queued eyed : Prop) (waits : Lane → Slot → Prop) (s : State) : Prop where
  slots : queued → SlotsDistinct s
  setupEmpty : queued → SetupEmpty s
  queues : queued → ∀ t ∈ s.tt.belt, ∀ l, t.queuedAt l = true → (s.lane l).state = .opened ∨ waits l t.slot
  eye : eyed → UnderEyeLive s

/-- No ticket waits for a turn. -/
def noneWait : Lane → Slot → Prop := fun _ _ => False

/-- The tickets of these slots wait for their turns in the pass of a lane. -/
def waitFor (l : Lane) (ks : List Slot) : Lane → Slot → Prop := fun m k => m = l ∧ k ∈ ks

/-- One ticket waits no more. -/
def butFor (w : Lane → Slot → Prop) (k : Slot) : Lane → Slot → Prop := fun l j => w l j ∧ j ≠ k

theorem queuesOnlyWhileOpen_iff {s : State} :
    QueuesOnlyWhileOpen s ↔ TableSound True False noneWait s := by
  constructor
  · intro h
    refine ⟨fun _ => h.slots, fun _ => h.setupEmpty, fun _ t ht l hq => .inl ?_, False.elim⟩
    by_contra hl
    have : t ∈ s.routeQueue l := mem_routeQueue.mpr ⟨ht, hq⟩
    rw [h.queues l hl] at this
    exact absurd this List.not_mem_nil
  · intro h
    refine ⟨h.slots trivial, h.setupEmpty trivial, fun l hl => ?_⟩
    refine List.eq_nil_iff_forall_not_mem.mpr (fun t ht => ?_)
    obtain ⟨hm, hq⟩ := mem_routeQueue.mp ht
    exact (h.queues trivial t hm l hq).elim hl id

theorem underEyeLive_iff {s : State} : UnderEyeLive s ↔ TableSound False True noneWait s :=
  ⟨fun h => ⟨False.elim, False.elim, False.elim, fun _ => h⟩, fun h => h.eye trivial⟩

namespace TableSound

variable {queued eyed : Prop} {w : Lane → Slot → Prop} {s : State}

/-! ### Single updates -/

theorem weaken (h : TableSound queued eyed w s) {v : Lane → Slot → Prop} (hv : ∀ l k, w l k → v l k) :
    TableSound queued eyed v s :=
  ⟨h.slots, h.setupEmpty, fun hq t ht l hl => (h.queues hq t ht l hl).imp_right (hv l _), h.eye⟩

theorem dropBut {k : Slot} (h : TableSound queued eyed (butFor w k) s) : TableSound queued eyed w s :=
  h.weaken (fun _ _ hw => hw.1)

/-- The belt list, the eye and the mode as they were, and every OPEN lane still OPEN. -/
theorem same (h : TableSound queued eyed w s) {t : State} (hb : t.tt.belt = s.tt.belt := by rfl)
    (hu : t.ind.underEye = s.ind.underEye := by rfl) (hm : t.mode = .setup → s.mode = .setup := by exact id)
    (hl : ∀ l, (s.lane l).state = .opened → (t.lane l).state = .opened := by exact fun _ => id) :
    TableSound queued eyed w t where
  slots hq := by
    have := h.slots hq
    unfold SlotsDistinct at this ⊢
    rw [hb]; exact this
  setupEmpty hq hset := hb.trans (h.setupEmpty hq (hm hset))
  queues hq u hu l hul := (h.queues hq u (hb ▸ hu) l hul).imp_left (hl l)
  eye he k hk := by rw [hb]; exact h.eye he k (hu ▸ hk)

/-- Records changed with their slots kept: the queues as they then stand are asked for. -/
theorem mapBelt (h : TableSound queued eyed w s) {v : Lane → Slot → Prop} {t : State} (g : Ticket → Ticket)
    (hg : ∀ u, (g u).slot = u.slot)
    (hq : queued → ∀ u ∈ s.tt.belt, ∀ l, (g u).queuedAt l = true → (s.lane l).state = .opened ∨ v l u.slot)
    (hb : t.tt.belt = s.tt.belt.map g := by rfl) (hu : t.ind.underEye = s.ind.underEye := by rfl)
    (hm : t.mode = s.mode := by rfl) (hl : t.lanes = s.lanes := by rfl) : TableSound queued eyed v t where
  slots hq := by
    have e : (Ticket.slot ∘ g) = Ticket.slot := funext hg
    have := h.slots hq
    unfold SlotsDistinct at this ⊢
    rw [hb, List.map_map, e]; exact this
  setupEmpty hq hset := by rw [hb, h.setupEmpty hq (hm ▸ hset), List.map_nil]
  queues hask u hmem l hul := by
    rw [hb] at hmem
    obtain ⟨x, hx, rfl⟩ := List.mem_map.mp hmem
    rw [hg, State.lane, hl]
    exact hq hask x hx l hul
  eye he k hk := by
    obtain ⟨x, hx, e⟩ := h.eye he k (hu ▸ hk)
    exact ⟨g x, hb ▸ List.mem_map_of_mem hx, (hg x).trans e⟩

/-- A record changed so that its ticket joins no route queue. -/
theorem modTicket (h : TableSound queued eyed w s) (k : Slot) (f : Ticket → Ticket)
    (hs : ∀ t, (f t).slot = t.slot := by intro _; rfl)
    (hq : ∀ t l, (f t).queuedAt l = true → t.queuedAt l = true := by exact fun _ _ => id) :
    TableSound queued eyed w (s.modTicket k f) := by
  refine h.mapBelt _ (fun u => ?_) (fun hask u hu l hl => h.queues hask u hu l ?_)
  · split
    · exact hs u
    · rfl
  · split at hl
    · exact hq u l hl
    · exact hl

/-- A record changed so that its ticket stands in the route queue of an OPEN lane or in none: it waits no more. -/
theorem place (h : TableSound queued eyed w s) (k : Slot) (f : Ticket → Ticket)
    (hs : ∀ t, (f t).slot = t.slot) (hq : ∀ t l, (f t).queuedAt l = true → (s.lane l).state = .opened) :
    TableSound queued eyed (butFor w k) (s.modTicket k f) := by
  refine h.mapBelt _ (fun u => ?_) (fun hask u hu l hl => ?_)
  · split
    · exact hs u
    · rfl
  · split at hl
    · exact .inl (hq u l hl)
    · rename_i hk
      exact (h.queues hask u hu l hl).imp_right (fun hw => ⟨hw, hk⟩)

theorem raise (h : TableSound queued eyed w s) (f : Flag) : TableSound queued eyed w (s.raise f) := h.same

theorem modChannel (h : TableSound queued eyed w s) (l : Lane) (f : Channel → Channel) :
    TableSound queued eyed w (s.modChannel l f) := h.same

theorem modDrive (h : TableSound queued eyed w s) (l : Lane) (f : Drive → Drive) :
    TableSound queued eyed w (s.modDrive l f) := h.same

/-- A lane record changes with its state kept. -/
theorem modLane (h : TableSound queued eyed w s) (l : Lane) (f : LaneRecord → LaneRecord)
    (hf : ∀ r, (f r).state = r.state := by intro _; rfl) : TableSound queued eyed w (s.modLane l f) := by
  refine h.same rfl rfl id (fun m hm => ?_)
  rw [State.lane_modLane]; split
  · rename_i e; subst e; rw [hf]; exact hm
  · exact hm

/-- The mode becomes one in which tickets may be live. -/
theorem setMode (h : TableSound queued eyed w s) {m : Mode} (hm : m ≠ .setup) :
    TableSound queued eyed w (s.setMode m) := h.same rfl rfl (fun e => absurd e hm)

theorem endStroking (h : TableSound queued eyed w s) (l : Lane) (m : Marks → Marks) :
    TableSound queued eyed w (s.endStroking l m) := by
  refine h.mapBelt _ (fun u => ?_) (fun hask u hu j hj => h.queues hask u hu j ?_)
  · split <;> rfl
  · split at hj
    · simp [Ticket.queuedAt] at hj
    · exact hj

theorem clearEye (h : TableSound queued eyed w s) :
    TableSound queued eyed w { s with ind := { s.ind with underEye := none, blockedLength := 0 } } :=
  ⟨h.slots, h.setupEmpty, h.queues, fun _ _ hk => nomatch hk⟩

theorem forLanes (h : TableSound queued eyed w s) {f : State → Lane → State}
    (hf : ∀ u l, TableSound queued eyed w u → TableSound queued eyed w (f u l)) :
    TableSound queued eyed w (s.forLanes f) := State.forLanes_keeps s h hf

/-! ### Tickets -/

theorem releaseOf (h : TableSound queued eyed w s) (t : Ticket) : TableSound queued eyed w (s.releaseOf t) := by
  unfold State.releaseOf; split
  · exact h.modLane _ _
  · exact h

theorem countRunOff (h : TableSound queued eyed w s) (r : Reason) : TableSound queued eyed w (s.countRunOff r) := by
  unfold State.countRunOff; split
  · exact h.same
  · exact h

/-- A ticket that was ARMED waits ROUTED in the queue it was in (R118). -/
theorem disarm (h : TableSound queued eyed w s) (l : Lane) : TableSound queued eyed w (s.disarm l) := by
  unfold State.disarm; split
  · exact h
  · refine (h.modChannel _ _).modTicket _ _ (fun _ => rfl) (fun t m hm => ?_)
    rw [queuedAt_iff] at hm ⊢
    refine ⟨hm.1, ?_⟩
    by_cases ha : t.state = .armed
    · exact .inr ha
    · simpa [ha] using hm.2

theorem disarmOf (h : TableSound queued eyed w s) (t : Ticket) : TableSound queued eyed w (s.disarmOf t) := by
  unfold State.disarmOf; split
  · exact ite_keeps (h.disarm _) h
  · exact h

/-- A removed ticket is under the eye no more (R29). -/
theorem underEye_remove (s : State) (t : Ticket) (o : TicketOutcome) : (s.remove t o).ind.underEye =
    if s.ind.underEye = some t.slot then none else s.ind.underEye := by
  have e : (((s.disarmOf t).releaseOf t).tally t.outlet o).ind = s.ind := by
    show ((s.disarmOf t).releaseOf t).ind = s.ind
    rw [State.releaseOf_ind, State.ind_disarmOf]
  unfold State.remove
  dsimp only
  rw [e]
  split <;> rfl

theorem remove (h : TableSound queued eyed w s) (t : Ticket) (o : TicketOutcome) :
    TableSound queued eyed w (s.remove t o) where
  slots hq := (Steady.remove s t o).distinct (h.slots hq)
  setupEmpty hq hset := by
    rw [State.belt_remove, h.setupEmpty hq (by rw [State.mode, State.mc_remove] at hset; exact hset), List.filter_nil]
  queues hq u hu l hl := by
    rw [State.belt_remove, List.mem_filter] at hu
    rw [State.lane_remove]
    exact h.queues hq u hu.1 l hl
  eye he k hk := by
    rw [underEye_remove] at hk
    split at hk
    · cases hk
    · rename_i hne
      obtain ⟨u, hu, rfl⟩ := h.eye he k hk
      have hs : u.slot ≠ t.slot := fun e => hne (e ▸ hk)
      exact ⟨u, by rw [State.belt_remove, List.mem_filter]; exact ⟨hu, by simpa using hs⟩, rfl⟩

/-- The entry into SETUP finds no live ticket (R158, R162). -/
theorem enterSetup (h : TableSound queued eyed w s) (hb : s.tt.belt = []) : TableSound queued eyed w s.enterSetup := by
  have k : TableSound queued eyed w (s.setMode .setup) := ⟨h.slots, fun _ _ => hb, h.queues, h.eye⟩
  exact k.forLanes (fun _ _ hu => ite_keeps ((hu.modChannel _ _).modDrive _ _) hu)

theorem drainCheck (h : TableSound queued eyed w s) : TableSound queued eyed w s.drainCheck := by
  unfold State.drainCheck; split
  · rename_i hd; exact h.enterSetup hd.2
  · exact h

theorem retire (h : TableSound queued eyed w s) (k : Slot) (o : TicketOutcome) :
    TableSound queued eyed w (s.retire k o) := by
  unfold State.retire; split
  · exact h
  · exact (h.remove _ o).drainCheck

theorem flush (h : TableSound queued eyed w s) : TableSound queued eyed w s.flush :=
  State.flush_keeps s h (fun _ t hu => hu.remove t _)

theorem storeBounds (h : TableSound queued eyed w s) (k : Slot) : TableSound queued eyed w (s.storeBounds k) :=
  h.modTicket _ _

/-- A ticket sent to run-off waits no more (R82). -/
theorem sendToRunOff (h : TableSound queued eyed w s) (k : Slot) (r : Reason) :
    TableSound queued eyed (butFor w k) (s.sendToRunOff k r) := by
  have off := h.place k (fun t => { t with
    state := .runningOff, dest := some .runOff, reason := some r, joined := false, nominal := none
    span := none }) (fun _ => rfl) (fun t l hl => by simp [Ticket.queuedAt] at hl)
  have bounded := (off.countRunOff r).storeBounds k
  exact ite_keeps (bounded.retire k _) bounded

/-! ### Diverts -/

/-- A ticket of the route queue is armed where it waits (R117). -/
theorem arm (h : TableSound queued eyed w s) {l : Lane} {t : Ticket} (ht : t ∈ s.routeQueue l) :
    TableSound queued eyed w (s.arm l t) := by
  obtain ⟨hmem, hqueued⟩ := mem_routeQueue.mp ht
  refine (h.modChannel l _).mapBelt _ (fun u => ?_) (fun hask u hu m hm => h.queues hask u hu m ?_)
  · split <;> rfl
  · split at hm
    · rename_i e
      have hut : u = t := by
        have a := State.ticketAt?_of_mem (h.slots hask) hu
        rw [e, State.ticketAt?_of_mem (h.slots hask) hmem] at a
        exact (Option.some.inj a).symm
      subst hut
      rw [queuedAt_iff] at hm hqueued ⊢
      exact ⟨hm.1, hqueued.2⟩
    · exact hm

/-- A ticket whose fire is taken leaves its route queue (R120). -/
theorem takeFire (h : TableSound queued eyed w s) (l : Lane) (t : Ticket) :
    TableSound queued eyed w (s.takeFire l t) :=
  (h.modChannel l _).modTicket _ _ (fun _ => rfl) (fun t m hm => by simp [Ticket.queuedAt] at hm)

theorem beginStroke (h : TableSound queued eyed w s) (l : Lane) (t : Ticket) :
    TableSound queued eyed w (s.beginStroke l t) := ((h.takeFire l t).modChannel _ _).modDrive _ _

theorem extendStroke (h : TableSound queued eyed w s) (l : Lane) (t : Ticket) :
    TableSound queued eyed w (s.extendStroke l t) := by
  unfold State.extendStroke; split
  · exact (h.takeFire l t).modChannel _ _
  · exact ((h.takeFire l t).modChannel _ _).modDrive _ _

theorem deferFire (h : TableSound queued eyed w s) (l : Lane) (t : Ticket) :
    TableSound queued eyed w (s.deferFire l t) := (h.modTicket _ _).modChannel _ _

theorem missFire (h : TableSound queued eyed w s) (l : Lane) (t : Ticket) :
    TableSound queued eyed w (s.missFire l t) := (((h.modChannel _ _).releaseOf t).sendToRunOff _ _).dropBut

theorem fire (h : TableSound queued eyed w s) (l : Lane) (late : Bool) :
    TableSound queued eyed w (s.fire l late) := by
  obtain he | ⟨t, u, -, hu, hc⟩ := fire_cases s l late
  · rw [he]; exact h
  have k : TableSound queued eyed w u := by
    rw [hu]; split
    · exact h.modTicket _ _
    · exact h
  obtain ⟨-, he⟩ | ⟨-, he⟩ | ⟨-, ⟨-, he⟩ | ⟨-, he⟩ | ⟨-, he⟩⟩ := hc <;> rw [he]
  · exact k
  · exact k.missFire l t
  · exact k.beginStroke l t
  · exact k.extendStroke l t
  · exact k.deferFire l t

theorem attendLane (h : TableSound queued eyed w s) (l : Lane) : TableSound queued eyed w (s.attendLane l) :=
  attend_keeps (P := TableSound queued eyed w) (fun _ k => k.disarm l) (fun _ _ k ht _ => k.arm ht)
    (fun _ k => k.fire l true) _ s h

theorem attendAll (h : TableSound queued eyed w s) : TableSound queued eyed w s.attendAll :=
  h.forLanes (fun _ l k => k.attendLane l)

theorem recomputeLane (h : TableSound queued eyed w s) (l : Lane) :
    TableSound queued eyed w (s.recomputeLane l) := by
  unfold State.recomputeLane; split
  · exact h
  · split
    · exact ite_keeps ((((h.modChannel _ _).modTicket _ _).fire l true).attendLane l)
        ((h.modChannel _ _).modTicket _ _)
    all_goals exact h

theorem recomputeLeads (h : TableSound queued eyed w s) : TableSound queued eyed w s.recomputeLeads :=
  h.forLanes (fun _ l k => k.recomputeLane l)

theorem judgeDeferred (h : TableSound queued eyed w s) (l : Lane) :
    TableSound queued eyed w (s.judgeDeferred l) := by
  have miss := fun t => (h.missFire l t).attendLane l
  have begins := fun t => (h.beginStroke l t).attendLane l
  unfold State.judgeDeferred; split
  · split
    · exact h
    · split
      · exact h
      · exact miss _
      · exact ite_keeps (miss _) (begins _)
      · exact ite_keeps (miss _) (begins _)
  all_goals exact h

theorem recoverLane (h : TableSound queued eyed w s) (l : Lane) : TableSound queued eyed w (s.recoverLane l) :=
  have k : TableSound queued eyed w (s.driveRecover l) := h.modDrive _ _
  ite_keeps (k.judgeDeferred l) k

theorem leavePull (h : TableSound queued eyed w s) (l : Lane) : TableSound queued eyed w (s.leavePull l) :=
  ite_keeps (h.recoverLane l) (h.modDrive _ _)

theorem takeTestEnd (h : TableSound queued eyed w s) (l : Lane) : TableSound queued eyed w (s.takeTestEnd l) := by
  unfold State.takeTestEnd; split
  · exact h.recoverLane l
  · exact h.modDrive _ _
  · exact h
  · exact h

theorem strokeEnds (h : TableSound queued eyed w s) (l : Lane) : TableSound queued eyed w (s.strokeEnds l) := by
  have k : TableSound queued eyed w ((s.closeChannel l).endStroking l id) := (h.modChannel _ _).endStroking l id
  unfold State.strokeEnds; dsimp only; split
  · exact k.recoverLane l
  · exact k.modDrive _ _
  · exact k
  · exact k

theorem capStroke (h : TableSound queued eyed w s) (l : Lane) : TableSound queued eyed w (s.capStroke l) := by
  unfold State.capStroke; split
  · exact ((h.endStroking _ _).modChannel _ _).recoverLane l
  · exact h.recoverLane l
  · exact h.recoverLane l

theorem abortLane (h : TableSound queued eyed w s) (l : Lane) : TableSound queued eyed w (s.abortLane l) :=
  ite_keeps (((h.endStroking _ _).modChannel _ _).recoverLane l) h

theorem endTestStrokes (h : TableSound queued eyed w s) : TableSound queued eyed w s.endTestStrokes :=
  h.forLanes (fun _ _ k => ite_keeps (k.modDrive _ _) k)

theorem enterHold (h : TableSound queued eyed w s) (m : HeldFrom) : TableSound queued eyed w (s.enterHold m) :=
  ((h.setMode (m := .hold m) nofun).raise _).forLanes (fun _ l k => k.abortLane l)

end TableSound
end Sys2Proof.Safety
end

section
/-! The same through resolution (R76 to R93), the changes of lane state that run the re-resolution pass (R98), and the
events and commands, down to the step. -/

namespace Sys2Proof.Machine

/-! ### Walks end at OPEN lanes (R78, R80) -/

theorem state_of_eligible {s : State} {t : Ticket} {c : WareClass} {l : Lane} (h : s.eligible t c l = true) :
    (s.lane l).state = .opened := by
  simp only [State.eligible, Bool.and_eq_true, beq_iff_eq] at h
  obtain ⟨⟨⟨-, hopen⟩, -⟩, -⟩ := h
  exact hopen

theorem walkLane_eligible {s : State} {t : Ticket} {c : WareClass} {r : Reason} {m : Lane} (n : Nat) (l : Lane)
    (h : (s.walkLane t c r n l).lane = some m) : s.eligible t c m = true := by
  induction n generalizing l with
  | zero =>
    unfold State.walkLane at h; split at h
    · exact Option.some.inj h ▸ ‹_›
    · cases h
  | succ n ih =>
    unfold State.walkLane at h; split at h
    · exact Option.some.inj h ▸ ‹_›
    · split at h
      · cases h
      · exact ih _ h

theorem walk_eligible {s : State} {t : Ticket} {c : WareClass} {d : Dest} {r : Reason} {m : Lane}
    (h : (s.walk t c d r).lane = some m) : s.eligible t c m = true := by
  cases d with
  | runOff => cases h
  | lane l => exact walkLane_eligible 6 l h

theorem rewalk_eligible {s : State} {t : Ticket} {c : WareClass} {l : Lane} {r : Reason} {m : Lane}
    (h : (s.rewalk t c l r).lane = some m) : s.eligible t c m = true := by
  unfold State.rewalk at h; split at h
  · cases h
  · split at h
    · cases h
    · exact walkLane_eligible _ _ h

/-! ### A change of lane state (R98) -/

/-- The lane's state is written, a flag may be set, and a lane that has left OPEN is passed over. -/
theorem changeLaneState_eq (s : State) (l : Lane) (new : LaneState) :
    ∃ u, (u = s.modLane l (fun r => { r with state := new }) ∨
        ∃ f, u = (s.modLane l (fun r => { r with state := new })).raise f) ∧
      s.changeLaneState l new =
        if (s.lane l).state = .opened ∧ new ≠ .opened then u.reresolutionPass l else u := by
  cases new with
  | closed => exact ⟨_, .inl rfl, rfl⟩
  | opened => exact ⟨_, .inl rfl, rfl⟩
  | full =>
    refine ⟨_, ?_, rfl⟩
    split
    · exact .inl rfl
    · exact .inr ⟨_, rfl⟩
  | faulted =>
    refine ⟨_, ?_, rfl⟩
    split
    · exact .inl rfl
    · exact .inr ⟨_, rfl⟩

end Sys2Proof.Machine

namespace Sys2Proof.Safety.TableSound

open Sys2Proof.Machine

variable {queued eyed : Prop} {w : Lane → Slot → Prop} {s : State}

/-! ### Resolution -/

/-- A ticket given an OPEN lane waits no more. -/
theorem giveLane (h : TableSound queued eyed w s) (k : Slot) (c : WareClass) {l : Lane} (r : Reason) (n : Nat)
    (hl : (s.lane l).state = .opened) : TableSound queued eyed (butFor w k) (s.giveLane k c l r n) := by
  have committed : TableSound queued eyed w (s.commit l) := h.modLane l _
  refine committed.place k _ (fun _ => rfl) (fun t m hm => ?_)
  obtain rfl : l = m := by simpa [Ticket.laneDest] using (queuedAt_iff.mp hm).1
  unfold State.commit
  rw [State.lane_modLane_self]
  exact hl

theorem writeWalk (h : TableSound queued eyed w s) (k : Slot) (c : WareClass) {e : WalkEnd}
    (he : ∀ l, e.lane = some l → (s.lane l).state = .opened) :
    TableSound queued eyed (butFor w k) (s.writeWalk k c e) := by
  unfold State.writeWalk; split
  · exact h.giveLane k c _ _ (he _ ‹_›)
  · exact (h.modTicket k _).sendToRunOff k _

theorem split (h : TableSound queued eyed w s) (k : Slot) : TableSound queued eyed w (s.split k) := by
  unfold State.split; split
  · exact h
  · exact ite_keeps (((h.disarmOf _).releaseOf _).sendToRunOff _ _).dropBut h

theorem judgePair (h : TableSound queued eyed w s) (passing : List Slot) (x y : Slot) :
    TableSound queued eyed w (s.judgePair passing x y) := by
  have joined : ∀ b, TableSound queued eyed w (s.writeJoined y b) := fun b =>
    h.modTicket _ _ (fun t => by split <;> rfl) (fun t l hl => by split at hl <;> exact hl)
  unfold State.judgePair; split
  · exact ite_keeps h (ite_keeps (ite_keeps (joined true) (((joined false).split x).split y)) (joined false))
  all_goals exact h

theorem crowd (h : TableSound queued eyed w s) (k : Slot) (passing : List Slot) :
    TableSound queued eyed w (s.crowd k passing) := by
  unfold State.crowd; dsimp only
  split <;> split
  · exact (h.judgePair _ _ _).judgePair _ _ _
  · exact h.judgePair _ _ _
  · exact h.judgePair _ _ _
  · exact h

theorem streak (h : TableSound queued eyed w s) (c : Cause) : TableSound queued eyed w (s.streak c) :=
  ite_keeps h.same (ite_keeps h.same h.same)

theorem resolve (h : TableSound queued eyed w s) (k : Slot) (c : Cause) :
    TableSound queued eyed w (s.resolve k c) := by
  unfold State.resolve; split
  · exact h
  · rename_i t _
    have noted := (h.streak c).modTicket k (fun u => { u with
      tag := none, windowEnd := none, outlet := ((s.streak c).startCase t c).outlet
      cls := some ((s.streak c).startCase t c).cls })
    exact ite_keeps ((noted.writeWalk k _ (fun _ hl => state_of_eligible (walk_eligible hl))).dropBut.crowd k []).attendAll h

/-! ### The re-resolution pass (R91 to R93) -/

/-- A turn of the pass: its ticket waits no more. -/
theorem reresolve {l : Lane} {k : Slot} {ks : List Slot} (h : TableSound queued eyed (waitFor l (k :: ks)) s)
    (passing : List Slot) : TableSound queued eyed (waitFor l ks) (s.reresolve l k passing) := by
  have turned : ∀ {u : State}, TableSound queued eyed (butFor (waitFor l (k :: ks)) k) u →
      TableSound queued eyed (waitFor l ks) u := fun hu => hu.weaken
    (fun _ _ ⟨⟨hm, hj⟩, hne⟩ => ⟨hm, (List.mem_cons.mp hj).resolve_left hne⟩)
  -- with no ticket of the lane's route queue in the slot there is no turn to take
  have passed : (∀ t, s.ticketAt? k = some t → t.queuedAt l = false) →
      TableSound queued eyed (waitFor l ks) s := by
    intro hk
    refine turned ⟨h.slots, h.setupEmpty, fun hq t ht m hm => ?_, h.eye⟩
    refine (h.queues hq t ht m hm).imp_right (fun hw => ⟨hw, fun e => ?_⟩)
    obtain ⟨rfl, -⟩ := hw
    have := hk t (e ▸ State.ticketAt?_of_mem (h.slots hq) ht)
    rw [hm] at this; cases this
  unfold State.reresolve; split
  · rename_i hn; exact passed (fun t ht => by rw [hn] at ht; cases ht)
  · rename_i t ht
    split
    · have off := (h.disarmOf t).releaseOf t
      exact (turned (off.writeWalk k _ (fun m hm => state_of_eligible (rewalk_eligible hm)))).crowd k passing
    · rename_i hq
      refine passed (fun u hu => ?_)
      obtain rfl : t = u := Option.some.inj (ht.symm.trans hu)
      simpa using hq

theorem passOver {l : Lane} {ks : List Slot} (h : TableSound queued eyed (waitFor l ks) s) :
    TableSound queued eyed noneWait (s.passOver l ks) := by
  induction ks generalizing s with
  | nil => exact h.weaken (fun _ _ hw => List.not_mem_nil hw.2)
  | cons k ks ih => exact ih (h.reresolve ks)

/-- A lane changes state, leaving the queues as they were: what waits at a lane that is OPEN no more takes its turn in the
pass (R98). -/
theorem changeLaneState (h : TableSound queued eyed noneWait s) (l : Lane) (new : LaneState) :
    TableSound queued eyed noneWait (s.changeLaneState l new) := by
  have passed : ∀ u : State, u.tt.belt = s.tt.belt → u.ind.underEye = s.ind.underEye → u.mode = s.mode →
      (∀ m, u.lane m = (s.modLane l (fun r => { r with state := new })).lane m) →
      TableSound queued eyed noneWait
        (if (s.lane l).state = .opened ∧ new ≠ .opened then u.reresolutionPass l else u) := by
    intro u hb hu hm hl
    have other : ∀ m, m ≠ l → u.lane m = s.lane m := fun m hne => by rw [hl, State.lane_modLane, if_neg hne]
    split
    · have waiting : TableSound queued eyed (waitFor l ((u.routeQueue l).map Ticket.slot)) u :=
        { slots := fun hq => by have := h.slots hq; unfold SlotsDistinct at this ⊢; rw [hb]; exact this
          setupEmpty := fun hq hset => hb.trans (h.setupEmpty hq (hm ▸ hset))
          queues := fun hq t ht m htm => by
            by_cases e : m = l
            · subst e; exact .inr ⟨rfl, List.mem_map_of_mem (mem_routeQueue.mpr ⟨ht, htm⟩)⟩
            · rw [other m e]; exact (h.queues hq t (hb ▸ ht) m htm).imp_right False.elim
          eye := fun he k hk => by rw [hb]; exact h.eye he k (hu ▸ hk) }
      exact waiting.passOver.attendAll
    · rename_i hn
      refine h.same hb hu (fun e => hm ▸ e) (fun m ho => ?_)
      by_cases e : m = l
      · subst e
        rw [hl, State.lane_modLane_self]
        by_contra hne; exact hn ⟨ho, hne⟩
      · rw [other m e]; exact ho
  obtain ⟨u, hu, e⟩ := changeLaneState_eq s l new
  rw [e]
  obtain rfl | ⟨f, rfl⟩ := hu
  · exact passed _ rfl rfl rfl (fun _ => rfl)
  · exact passed _ rfl rfl rfl (fun _ => rfl)

theorem addFill (h : TableSound queued eyed noneWait s) (l : Lane) : TableSound queued eyed noneWait (s.addFill l) :=
  have k : TableSound queued eyed noneWait (s.modLane l (fun r => { r with fill := satInc 999 r.fill })) := h.modLane l _
  ite_keeps (k.changeLaneState l _) k

theorem countFailure (h : TableSound queued eyed noneWait s) (l : Lane) :
    TableSound queued eyed noneWait (s.countFailure l) :=
  have k : TableSound queued eyed noneWait (s.modLane l (fun r => { r with failures := satInc 15 r.failures })) :=
    h.modLane l _
  ite_keeps (k.changeLaneState l _) k

theorem expireEnd (h : TableSound queued eyed noneWait s) (k : Slot) :
    TableSound queued eyed noneWait (s.expireEnd k) := by
  unfold State.expireEnd; split
  · exact h
  · split
    · exact (h.retire k _).addFill _
    · exact h.retire k _
    · exact h.retire k _
    all_goals exact h

theorem closeConfirm (h : TableSound queued eyed noneWait s) (k : Slot) :
    TableSound queued eyed noneWait (s.closeConfirm k) := by
  unfold State.closeConfirm; split
  · exact h
  · rename_i t _
    split
    · exact h
    · rename_i l _
      have doubted := (h.releaseOf t).modTicket k (fun t => { t with state := .doubt, closeCount := none })
        (fun _ => rfl) (fun t m hm => by simp [Ticket.queuedAt] at hm)
      have bounded := (ite_keeps (c := t.joined = true) doubted (doubted.countFailure l)).storeBounds k
      exact ite_keeps (bounded.expireEnd k) bounded

/-! ### Inputs and commands -/

/-- A new ticket joins the belt list at its tail and is the one under the eye (R17, R42). -/
theorem openTicket_tables (s : State) (k : Slot) (tag : Tag) :
    (s.openTicket k tag).tt.belt = s.tt.belt ++ [newTicket k (s.tt.generations.get k + 1) tag s.now] ∧
      (s.openTicket k tag).ind.underEye = some k ∧ (s.openTicket k tag).mode = s.mode ∧
      (s.openTicket k tag).lanes = s.lanes := by
  obtain ⟨belt, mode, lanes⟩ : (s.allocate k tag).tt.belt =
      s.tt.belt ++ [newTicket k (s.tt.generations.get k + 1) tag s.now] ∧ (s.allocate k tag).mode = s.mode ∧
      (s.allocate k tag).lanes = s.lanes := by
    unfold State.allocate; dsimp only; split <;> exact ⟨rfl, rfl, rfl⟩
  unfold State.openTicket State.offerTrigger
  dsimp only; split <;> exact ⟨belt, rfl, mode, lanes⟩

/-- A free slot holds no live ticket (R17). -/
theorem slot_ne_of_free {k : Slot} (hk : s.freeSlot? = some k) : ∀ t ∈ s.tt.belt, t.slot ≠ k := by
  simpa using List.find?_some hk

theorem openTicket (h : TableSound queued eyed noneWait s) {k : Slot} (tag : Tag) (hm : s.mode ≠ .setup)
    (hk : s.freeSlot? = some k) : TableSound queued eyed noneWait (s.openTicket k tag) := by
  obtain ⟨belt, eye, mode, lanes⟩ := openTicket_tables s k tag
  refine ⟨fun hq => ?_, fun _ hset => absurd (mode ▸ hset) hm, fun hq t ht l hl => ?_, fun _ j hj => ?_⟩
  · have := h.slots hq
    unfold SlotsDistinct at this ⊢
    rw [belt, List.map_append, List.map_singleton, ← List.concat_eq_append, List.nodup_concat]
    refine ⟨fun hmem => ?_, this⟩
    obtain ⟨t, ht, e⟩ := List.mem_map.mp hmem
    exact slot_ne_of_free hk t ht e
  · rw [belt] at ht
    rw [State.lane, lanes]
    rcases List.mem_append.mp ht with ht | ht
    · exact h.queues hq t ht l hl
    · rw [List.mem_singleton.mp ht] at hl
      simp [Ticket.queuedAt, newTicket] at hl
  · rw [eye] at hj
    exact ⟨_, belt ▸ List.mem_append_right _ (List.mem_singleton_self _), Option.some.inj hj⟩

theorem configureFrom_lanes (s : State) (n : Nat) (cs : List LaneConfig) :
    ∃ v, s.configureFrom n cs = { s with lanes := v } := by
  induction cs generalizing s n with
  | nil => exact ⟨_, rfl⟩
  | cons c cs ih =>
    unfold State.configureFrom; split
    · exact ih _ _
    · exact ih _ _

/-- WRITE LANES is taken in SETUP alone, where no ticket waits at any lane (R97). -/
theorem writeLanes (h : TableSound queued eyed noneWait s) (a : Byte) (rs : List LaneWrite) :
    TableSound queued eyed noneWait (cmdWriteLanes a rs s).1 := by
  unfold cmdWriteLanes; split
  · exact h
  split
  · exact h
  rename_i hset
  have empty : queued → s.tt.belt = [] := fun hq => h.setupEmpty hq (not_not.mp hset)
  split
  · exact h
  split
  · exact h
  · rename_i cs _
    obtain ⟨v, hv⟩ := configureFrom_lanes s a.toNat cs
    dsimp only
    rw [hv]
    exact ⟨h.slots, h.setupEmpty, fun hq t ht => absurd ht (by simp [empty hq]), h.eye⟩

theorem softReset (h : TableSound queued eyed w s) : TableSound queued eyed noneWait s.softReset := by
  have k : TableSound queued eyed w s.flush.clearFailures := h.flush.forLanes (fun _ l hu => hu.modLane l _)
  have hb : s.flush.clearFailures.tt.belt = [] :=
    State.forLanes_keeps (P := fun u => u.tt.belt = []) _ (State.belt_flush s) (fun _ _ hu => hu)
  unfold State.softReset
  generalize s.flush.clearFailures = u at k hb ⊢
  exact ⟨k.slots, fun _ _ => hb, fun _ t ht => absurd (hb ▸ ht) List.not_mem_nil, fun _ _ hk => nomatch hk⟩

theorem flushToSetup (h : TableSound queued eyed w s) : TableSound queued eyed w s.flushToSetup := by
  unfold State.flushToSetup
  exact h.flush.enterSetup (State.belt_flush s)

/-- The reply of a mode command leaves the state to which it is given. -/
theorem modeAnswer (h : TableSound queued eyed w s) (st : Status) : TableSound queued eyed w (s.modeAnswer st).1 := h

theorem modeCommand (h : TableSound queued eyed w s) (m : Byte) : TableSound queued eyed w (cmdSetMode m s).1 := by
  have run : TableSound queued eyed w s.enterRun.1 := by
    unfold State.enterRun; split
    · exact h
    · split
      · exact h.modeAnswer _
      · exact (h.endTestStrokes.setMode (m := .run) nofun).modeAnswer _
  unfold cmdSetMode; split
  · exact h.modeAnswer _
  · exact h.modeAnswer _
  · exact h.modeAnswer _
  · exact h.flushToSetup.modeAnswer _
  · exact run
  · exact h.modeAnswer _
  · exact (h.setMode (m := .run) nofun).modeAnswer _
  · exact h.modeAnswer _
  · exact h.modeAnswer _
  · exact (h.setMode (m := .drain) nofun).drainCheck.modeAnswer _
  all_goals exact h.modeAnswer _

theorem guardOpens (h : TableSound queued eyed w s) : TableSound queued eyed w s.guardOpens := by
  have k : TableSound queued eyed w { s with mc := { s.mc with guard := .opened } } := h.same
  unfold State.guardOpens; split
  · exact h
  · dsimp only; split
    · exact k.enterHold _
    · exact k.enterHold _
    · exact k
    · exact k.endTestStrokes

theorem hold (h : TableSound queued eyed w s) : TableSound queued eyed w (cmdHold s).1 := by
  unfold cmdHold; split
  · exact h.modeAnswer _
  · exact (h.enterHold .run).modeAnswer _
  · exact (h.enterHold .drain).modeAnswer _
  · exact h.modeAnswer _

theorem openLane (h : TableSound queued eyed noneWait s) (l : Lane) :
    TableSound queued eyed noneWait (s.openLane l) :=
  (h.modLane l (fun r => { r with failures := 0 })).changeLaneState l _

theorem setCapacity (h : TableSound queued eyed noneWait s) (l : Lane) (n : Nat) :
    TableSound queued eyed noneWait (s.setCapacity l n) := by
  have k := h.modLane l (fun r => { r with capacity := n })
  unfold State.setCapacity; dsimp only; split
  · exact ite_keeps (k.changeLaneState l _) k
  · exact ite_keeps (k.changeLaneState l _) k
  · exact k
  · exact k

theorem exchangeRack (h : TableSound queued eyed noneWait s) (l : Lane) :
    TableSound queued eyed noneWait (s.exchangeRack l) :=
  have k := h.modLane l (fun r => { r with fill := 0 })
  ite_keeps (k.changeLaneState l _) k

theorem testStroke (h : TableSound queued eyed w s) (l d : Byte) :
    TableSound queued eyed w (cmdTestStroke l d s).1 := by
  refine StepKept.answer_ite h ?_
  split
  · exact h
  · exact StepKept.answer_ite h (StepKept.answer_ite h (h.modDrive _ _))

theorem redirectToRunOff (h : TableSound queued eyed w s) (t : Ticket) :
    TableSound queued eyed w (s.redirectToRunOff t) := by
  unfold State.redirectToRunOff; split
  · exact (h.sendToRunOff _ _).dropBut
  · exact h.modTicket _ _

/-- A redirected ticket is given an eligible lane, which is OPEN, or sent to run-off (R37, R38). -/
theorem applyRedirect (h : TableSound queued eyed w s) (t : Ticket) {d : Dest} (hd : s.targetEligible t d = true) :
    TableSound queued eyed w (s.applyRedirect t d) := by
  have k := ((h.disarmOf t).releaseOf t).modTicket t.slot (fun t =>
    { t with hops := 0, marks := {}, fireCount := none })
  unfold State.applyRedirect
  cases d with
  | runOff => exact ((k.redirectToRunOff t).crowd _ _).attendAll
  | lane l =>
    refine ((k.giveLane t.slot (t.cls.getD 0) .redirected 0 ?_).dropBut.crowd _ _).attendAll
    have hopen := state_of_eligible hd
    rw [State.lane_releaseOf] at hopen
    rw [State.lane_modTicket, State.lane_releaseOf]
    simpa [State.lane] using hopen

theorem redirect (h : TableSound queued eyed w s) (a b c : Byte) :
    TableSound queued eyed w (cmdRedirect a b c s).1 := by
  refine StepKept.answer_ite h (StepKept.answer_ite h ?_)
  split
  · exact h
  · exact h
  · rename_i d t _ _
    refine StepKept.answer_ite h ?_
    cases he : s.targetEligible t d with
    | false => exact h
    | true =>
      refine StepKept.answer_ite h (StepKept.answer_ite h ?_)
      dsimp only
      exact h.applyRedirect t he

theorem pullTicket (h : TableSound queued eyed w s) (t : Ticket) : TableSound queued eyed w (s.pullTicket t) := by
  unfold State.pullTicket; split
  · exact (h.retire _ _).attendLane _
  · exact h.retire _ _

theorem elapse (h : TableSound queued eyed w s) (n : Nat) : TableSound queued eyed w (s.elapse n) := by
  unfold State.elapse; split
  · exact h.same
  · exact TableSound.forLanes h.same (fun _ _ k => k.modDrive _ _)

/-- What the part's own course changes keeps the tickets' invariants. -/
theorem ownKept (queued eyed : Prop) : OwnKept (TableSound queued eyed noneWait) where
  alike h e := h.same e.belt e.underEye (fun hm => by rw [State.mode, ← e.mc]; exact hm)
    (fun l hl => by rw [State.lane, e.lanes]; exact hl)
  elapse n h := h.elapse n
  record k f hf h := h.modTicket k f (fun t => (hf t).slot) (fun t l hl => by
    simpa only [Ticket.queuedAt, Ticket.laneDest, (hf t).state, (hf t).dest] using hl)
  clearEye h := h.clearEye
  resolve k c h := h.resolve k c
  recomputeLeads h := h.recomputeLeads
  takeDueFire l h := (h.fire l false).attendLane l
  strokeEnds l h := h.strokeEnds l
  closeConfirm k h := h.closeConfirm k
  expireEnd k h := h.expireEnd k
  leavePull l _ h := h.leavePull l
  capStroke l _ h := h.capStroke l
  endRecovery l _ h := (h.modDrive l _).judgeDeferred l
  takeTestEnd l _ h := h.takeTestEnd l
  softReset h := h.softReset

/-- Every input and command keeps them too. -/
theorem stepKept (queued eyed : Prop) : StepKept (TableSound queued eyed noneWait) where
  toOwnKept := ownKept queued eyed
  held s c x := ⟨fun _ => List.nodup_nil, fun _ _ => rfl, fun _ _ ht => absurd ht List.not_mem_nil,
    fun _ _ hk => nomatch hk⟩
  released g _ h := h.same
  openTicket tag hm hk h := h.openTicket tag hm hk
  retire k o h := h.retire k o
  counters l f hf h := h.modLane l f (fun r => by rw [hf r])
  addFill l h := h.addFill l
  guardOpens h := h.guardOpens
  guardCloses h := h.same
  setMode m h := h.modeCommand m
  hold h := h.hold
  resume {s} h := by
    unfold cmdResume; split
    · rename_i m _ _
      exact (((ownKept queued eyed).settle h).setMode (by cases m <;> nofun)).drainCheck.modeAnswer _
    all_goals exact h.modeAnswer _
  writeLanes a rs h := h.writeLanes a rs
  testStroke l d h := h.testStroke l d
  openLane l h := h.openLane l
  closeLane l h := h.changeLaneState l _
  setCapacity l n _ h := h.setCapacity l n
  exchangeRack l h := h.exchangeRack l
  redirect a b c h := h.redirect a b c
  pullTicket t h := h.pullTicket t

end Sys2Proof.Safety.TableSound

open Sys2Proof.Machine Sys2Proof.Safety

/-- Settles O59: each invariant is the part of `TableSound` that is asked for, and every operation keeps that part. -/
theorem stepKeepsQueuesOnlyWhileOpen : Obligations.StepKeepsQueuesOnlyWhileOpen := by
  refine ⟨fun s t h ht => ?_, fun s t h ht => ?_⟩
  · exact queuesOnlyWhileOpen_iff.mpr ((TableSound.stepKept True False).step (queuesOnlyWhileOpen_iff.mp h) ht)
  · exact underEyeLive_iff.mpr ((TableSound.stepKept False True).step (underEyeLive_iff.mp h) ht)
end

section
/-! PULL and CLEAR TALLIES (R36, R40): what the removal of a ticket comes to, what the entry into SETUP does to each lane,
and the end of a drain (R158, R163). -/

namespace Sys2Proof.Machine

open Sys2Proof.Safety

variable {s : State} {t : Ticket}

/-! ### The removal of a ticket (R28) -/

theorem releaseOf_eq (s : State) (t : Ticket) : s.releaseOf t = { s with lanes := (s.releaseOf t).lanes } := by
  unfold State.releaseOf; split <;> rfl

/-- The lane of the ticket's commitment counts one less (R84). -/
theorem lanes_releaseOf_some {l : Lane} (h : t.commitment = some l) :
    (s.releaseOf t).lanes = tableMod s.lanes l (fun r => { r with committed := r.committed - 1 }) := by
  unfold State.releaseOf; rw [h]; rfl

theorem lanes_releaseOf_none (h : t.commitment = none) : (s.releaseOf t).lanes = s.lanes := by
  unfold State.releaseOf; rw [h]

theorem lanes_releaseOf_congr {u : State} (h : u.lanes = s.lanes) : (u.releaseOf t).lanes = (s.releaseOf t).lanes := by
  cases hc : t.commitment with
  | none => rw [lanes_releaseOf_none hc, lanes_releaseOf_none hc, h]
  | some l => rw [lanes_releaseOf_some hc, lanes_releaseOf_some hc, h]

theorem disarmOf_eq (s : State) (t : Ticket) :
    ∃ b, s.disarmOf t = { s with channels := (s.disarmOf t).channels, tt := { s.tt with belt := b } } := by
  unfold State.disarmOf State.disarm; split
  · split
    · split
      · exact ⟨_, rfl⟩
      · exact ⟨_, rfl⟩
    · exact ⟨_, rfl⟩
  · exact ⟨_, rfl⟩

/-- The channel of the ticket's lane has it armed no more (R118). -/
theorem disarmOf_armed {l : Lane} {a : Armed} (hl : t.laneDest = some l) (ha : (s.channel l).armed = some a)
    (e : a.slot = t.slot) : s.disarmOf t = (s.modChannel l (fun c => { c with armed := none })).modTicket t.slot
      (fun u => { u with fireCount := none, state := if u.state = .armed then .routed else u.state }) := by
  have armed : s.armsSlot l t.slot = true := by simp [State.armsSlot, ha, e]
  unfold State.disarmOf State.disarm
  simp only [hl, armed, if_true, ha, e]

/-- A ticket whose lane has another armed is not disarmed. -/
theorem disarmOf_other {l : Lane} {a : Armed} (hl : t.laneDest = some l) (ha : (s.channel l).armed = some a)
    (e : a.slot ≠ t.slot) : s.disarmOf t = s := by
  have unarmed : s.armsSlot l t.slot = false := by simp [State.armsSlot, ha, e]
  unfold State.disarmOf
  simp only [hl, unarmed, Bool.false_eq_true, if_false]

theorem channels_disarmOf_congr {u : State} (h : u.channels = s.channels) :
    (u.disarmOf t).channels = (s.disarmOf t).channels := by
  have hc : ∀ l, u.channel l = s.channel l := fun l => by rw [State.channel, State.channel, h]
  unfold State.disarmOf State.disarm State.armsSlot
  split
  · rename_i l _
    rw [hc]
    cases (s.channel l).armed with
    | none => simpa using h
    | some a =>
      by_cases e : a.slot = t.slot
      · simp [e, State.modChannel, h]
      · simpa [e] using h
  · exact h

theorem lanes_releaseOf_frameDone : (s.frameDone.releaseOf t).lanes = (s.releaseOf t).lanes :=
  lanes_releaseOf_congr rfl

theorem channels_disarmOf_frameDone : (s.frameDone.disarmOf t).channels = (s.disarmOf t).channels :=
  channels_disarmOf_congr rfl

/-- All that the removal of a ticket changes. -/
theorem remove_eq (s : State) (t : Ticket) (o : TicketOutcome) : s.remove t o = { s with
    tt := { s.tt with
      belt := without s t.slot
      tallies := tableMod s.tt.tallies (tallyIndex t.outlet o) (fun n => min (n + 1) 65535) }
    lanes := (s.releaseOf t).lanes
    channels := (s.disarmOf t).channels
    ind := if s.ind.underEye = some t.slot then { s.ind with underEye := none, blockedLength := 0 } else s.ind } := by
  have hb := State.belt_remove s t o
  obtain ⟨b, hd⟩ := disarmOf_eq s t
  have hl : ((s.disarmOf t).releaseOf t).lanes = (s.releaseOf t).lanes :=
    lanes_releaseOf_congr (State.lanes_disarmOf s t)
  unfold State.remove at hb ⊢
  rw [releaseOf_eq, hl, hd] at hb ⊢
  dsimp only [State.tally] at hb ⊢
  rw [hb]
  rfl

theorem routeQueue_remove (s : State) (t : Ticket) (o : TicketOutcome) (l : Lane) :
    (s.remove t o).routeQueue l = (s.routeQueue l).filter (fun u => u.slot ≠ t.slot) := by
  unfold State.routeQueue
  rw [State.belt_remove, List.filter_filter, List.filter_filter]
  simp only [Bool.and_comm]

/-- A retirement that completes no drain is the removal alone. -/
theorem retire_goesOn (o : TicketOutcome) (hd : SlotsDistinct s) (ht : t ∈ s.tt.belt) (hg : DrainGoesOn s t) :
    s.retire t.slot o = s.remove t o := by
  unfold State.retire
  rw [State.ticketAt?_of_mem hd ht]
  refine State.drainCheck_of_goesOn (fun hm => ?_)
  rw [State.belt_remove]
  exact hg (by rw [State.mode, State.mc_remove] at hm; exact hm)

/-! ### The entry into SETUP, lane by lane (R163) -/

/-- What each lane's turn makes of its own items, when no other lane's turn touches them. -/
theorem State.forLanes_read {α : Type} (read : State → α) {f : State → Lane → State} (s : State) (l : Lane) (a : α)
    (own : ∀ u, read u = read s → read (f u l) = a) (others : ∀ u m, m ≠ l → read (f u m) = read u) :
    read (s.forLanes f) = a := by
  have key : ∀ (ls : List Lane) (u : State), ls.Nodup → read u = (if l ∈ ls then read s else a) →
      read (ls.foldl f u) = a := by
    intro ls
    induction ls with
    | nil => intro u _ hu; simpa using hu
    | cons m ls ih =>
      intro u hn hu
      obtain ⟨hm, hn⟩ := List.nodup_cons.mp hn
      rw [List.foldl_cons]
      refine ih _ hn ?_
      by_cases e : m = l
      · subst e
        rw [if_neg hm]
        exact own u (by simpa using hu)
      · rw [others u m e, hu]
        simp [Ne.symm e]
  exact key allLanes s (by decide) (by rw [if_pos (mem_allLanes l)])

/-- The entry into SETUP changes the mode, drives and channels alone. -/
theorem enterSetup_eq (s : State) :
    ∃ d c, s.enterSetup = { s with mc := { s.mc with mode := .setup }, drives := d, channels := c } := by
  unfold State.enterSetup
  refine State.forLanes_keeps (P := fun u => ∃ d c, u = { s with
    mc := { s.mc with mode := .setup }, drives := d, channels := c }) _ ⟨_, _, rfl⟩ (fun u l hu => ?_)
  obtain ⟨d, c, rfl⟩ := hu
  split
  · exact ⟨_, _, rfl⟩
  · exact ⟨_, _, rfl⟩

/-- A fire stroke in PULL or HOLD ends, its stroke end count no longer watched; every other lane stays as it was. -/
theorem enterSetup_lane (s : State) (l : Lane) : (s.enterSetup.drive l, s.enterSetup.channel l) =
    if (s.drive l).driven = true ∧ (s.drive l).inTest = false then
      (if (s.lane l).recoveryTime = 0 then Drive.reset else recovering (s.lane l).recoveryTime (s.drive l).kind,
        { s.channel l with strokeEnd := none })
    else (s.drive l, s.channel l) := by
  unfold State.enterSetup
  have key := State.forLanes_read (fun u : State => (u.lane l, u.drive l, u.channel l)) (s.setMode .setup) l
    (s.lane l, if (s.drive l).driven = true ∧ (s.drive l).inTest = false then
      (if (s.lane l).recoveryTime = 0 then Drive.reset else recovering (s.lane l).recoveryTime (s.drive l).kind,
        { s.channel l with strokeEnd := none })
    else (s.drive l, s.channel l))
    (f := fun s l => if (s.drive l).driven && !(s.drive l).inTest then
      (s.modChannel l (fun c => { c with strokeEnd := none })).driveRecover l else s) ?_ ?_
  · exact (Prod.mk.inj key).2
  · intro u hu
    obtain ⟨hl, hu⟩ := Prod.mk.inj hu
    obtain ⟨hd, hc⟩ := Prod.mk.inj hu
    have hl : u.lane l = s.lane l := hl
    have hd : u.drive l = s.drive l := hd
    have hc : u.channel l = s.channel l := hc
    simp only [hd, Bool.and_eq_true, Bool.not_eq_true']
    split
    · simp only [drive_driveRecover, if_true, State.lane_driveRecover, State.channel_driveRecover,
        State.lane_modChannel, State.drive_modChannel, State.channel_modChannel_self, hl, hd, hc]
    · simp only [hl, hd, hc]
  · intro u m hm
    split
    · simp only [drive_driveRecover, if_neg (Ne.symm hm), State.lane_driveRecover, State.channel_driveRecover,
        State.lane_modChannel, State.drive_modChannel, State.channel_modChannel]
    · rfl

/-- The entry into SETUP with no ticket live, from a state that differs from `p` in tickets, lanes and line alone. -/
theorem drainEnded_enterSetup {p : State} {tt : TicketTable} {ls : Vector LaneRecord 12} {i j : SupervisoryLine}
    (hr : ∀ l, (ls.get l).recoveryTime = (p.lane l).recoveryTime) (hb : tt.belt = []) :
    DrainEnded p { ({ p with tt := tt, lanes := ls, sli := i } : State).enterSetup with sli := j } := by
  have lane := enterSetup_lane { p with tt := tt, lanes := ls, sli := i }
  obtain ⟨d, c, he⟩ := enterSetup_eq { p with tt := tt, lanes := ls, sli := i }
  rw [he] at lane ⊢
  have lane : ∀ l, (d.get l, c.get l) = if (p.drive l).driven = true ∧ (p.drive l).inTest = false then
      (if (p.lane l).recoveryTime = 0 then Drive.reset else recovering (p.lane l).recoveryTime (p.drive l).kind,
        { p.channel l with strokeEnd := none })
      else (p.drive l, p.channel l) := fun l => by rw [← hr l]; exact lane l
  refine ⟨rfl, hb, fun l hd ht => ?_, fun l h => ?_, rfl⟩
  · have ends := lane l
    rw [if_pos ⟨driven_iff.mpr hd, ht⟩] at ends
    exact Prod.mk.inj ends
  · have stays := lane l
    rw [if_neg (fun k => h.elim (fun hn => hn (driven_iff.mp k.1)) (fun ht => by rw [ht] at k; cases k.2))] at stays
    exact Prod.mk.inj stays

/-! ### PULL, its tests (R40) -/

/-- A handle out of range names nothing. -/
theorem handleInRange_false {slot gen : Byte} (h : 127 < slot.toNat ∨ 15 < gen.toNat) :
    handleInRange slot gen = false := by
  simp only [handleInRange, Bool.and_eq_false_iff, decide_eq_false_iff_not]
  omega

theorem handleInRange_true {slot gen : Byte} (hs : slot.toNat ≤ 127) (hg : gen.toNat ≤ 15) :
    handleInRange slot gen = true := by
  simp [handleInRange, hs, hg]

section Refused

variable {slot gen : Byte} (h : Listening s)

include h

theorem pull_notInMode (hm : s.mode = .setup) : exec (.pull slot gen) s = .next (answered s .notInMode []) := by
  refine State.station_answered h ?_ rfl
  unfold cmdPull
  exact if_pos hm

theorem pull_badParam (hm : s.mode ≠ .setup) (hr : 127 < slot.toNat ∨ 15 < gen.toNat) :
    exec (.pull slot gen) s = .next (answered s .badParam []) := by
  refine State.station_answered h ?_ rfl
  unfold cmdPull
  rw [if_neg (show s.frameDone.mode ≠ .setup from hm), handleInRange_false hr]
  rfl

theorem pull_stale (hm : s.mode ≠ .setup) (hs : slot.toNat ≤ 127) (hg : gen.toNat ≤ 15)
    (hn : ∀ t ∈ s.tt.belt, t.slot.val = slot.toNat → t.generation.toNat ≠ gen.toNat) :
    exec (.pull slot gen) s = .next (answered s .stale []) := by
  refine State.station_answered h ?_ rfl
  unfold cmdPull
  rw [if_neg (show s.frameDone.mode ≠ .setup from hm), handleInRange_true hs hg,
    named?_none (s := s.frameDone) hn]
  rfl

end Refused

/-- A handle names a live ticket, at a listening station outside SETUP. -/
structure Named (s : State) (slot gen : Byte) (t : Ticket) : Prop where
  listening : Listening s
  mode : s.mode ≠ .setup
  slots : SlotsDistinct s
  live : t ∈ s.tt.belt
  slot : t.slot.val = slot.toNat
  generation : t.generation.toNat = gen.toNat

section Taken

variable {slot gen : Byte} (h : Named s slot gen t)

include h

theorem cmdPull_named : cmdPull slot gen s.frameDone =
    if t.state = .stroking then (s.frameDone, plain .state) else (s.frameDone.pullTicket t, plain .ok) := by
  obtain ⟨hr, hn⟩ := named?_eq (s := s.frameDone) h.slots h.live h.slot h.generation
  unfold cmdPull
  rw [if_neg (show s.frameDone.mode ≠ .setup from h.mode), hr, hn]
  rfl

theorem pull_stroking (ht : t.state = .stroking) : exec (.pull slot gen) s = .next (answered s .state []) := by
  refine State.station_answered h.listening ?_ rfl
  rw [cmdPull_named h, if_pos ht]
  rfl

/-- A named ticket that does not stroke is pulled and the command answered OK. -/
theorem pull_answered (ht : t.state ≠ .stroking) {u : State} (hu : s.frameDone.pullTicket t = u.frameDone)
    (ha : u.sli.address = s.sli.address := by rfl) : exec (.pull slot gen) s = .next (answered u .ok []) := by
  refine State.station_answered h.listening ?_ ha
  rw [cmdPull_named h, if_neg ht, hu]
  rfl

end Taken

/-! ### PULL of a ticket (R28, R40) -/

/-- The Ticket Table without the ticket, its outcome tallied PULLED. -/
def pulledTable (s : State) (t : Ticket) : TicketTable :=
  { s.tt with
    belt := without s t.slot
    tallies := tableMod s.tt.tallies (tallyIndex t.outlet .pulled) (fun n => min (n + 1) 65535) }

/-- All that a PULL changes before the next head is attended to. -/
theorem remove_pulled {ls : Vector LaneRecord 12} {cs : Vector Channel 12} (he : s.ind.underEye ≠ some t.slot)
    (hl : (s.releaseOf t).lanes = ls) (hc : (s.disarmOf t).channels = cs) :
    s.remove t .pulled = { s with tt := pulledTable s t, lanes := ls, channels := cs } := by
  rw [remove_eq, if_neg he, hl, hc]
  rfl

theorem pullTicket_noLane (hd : SlotsDistinct s) (ht : t ∈ s.tt.belt) (hg : DrainGoesOn s t)
    (hl : t.laneDest = none) : s.pullTicket t = s.remove t .pulled := by
  unfold State.pullTicket
  rw [hl]
  exact retire_goesOn .pulled hd ht hg

theorem pullTicket_lane {l : Lane} (hd : SlotsDistinct s) (ht : t ∈ s.tt.belt) (hg : DrainGoesOn s t)
    (hl : t.laneDest = some l) : s.pullTicket t = (s.remove t .pulled).attendLane l := by
  unfold State.pullTicket
  rw [hl]
  dsimp only
  rw [retire_goesOn .pulled hd ht hg]

/-- With no other ticket in its route queue a ticket is pulled and no head attended to. -/
theorem pullTicket_lone {l : Lane} (hd : SlotsDistinct s) (ht : t ∈ s.tt.belt) (hg : DrainGoesOn s t)
    (hl : t.laneDest = some l) (hq : ∀ u ∈ s.routeQueue l, u = t) : s.pullTicket t = s.remove t .pulled := by
  rw [pullTicket_lane hd ht hg hl]
  apply attendLane_empty
  rw [routeQueue_remove, List.filter_eq_nil_iff]
  intro u hu
  simp [hq u hu]

theorem commitment_of_waiting (h : t.state = .routed ∨ t.state = .armed) : t.commitment = t.laneDest := by
  unfold Ticket.commitment
  obtain h | h := h <;> rw [h]

/-- Two tickets of a route queue stand in two slots. -/
theorem slot_ne_of_routeQueue {l : Lane} {x y : Ticket} (hd : SlotsDistinct s) (hq : s.routeQueue l = [x, y]) :
    x.slot ≠ y.slot := by
  have sub : ((s.routeQueue l).map Ticket.slot).Nodup := (List.filter_sublist.map Ticket.slot).nodup hd
  rw [hq] at sub
  simpa using sub

theorem slotsDistinct_singleton (hb : s.tt.belt = [t]) : SlotsDistinct s := by
  unfold SlotsDistinct; rw [hb]; exact List.nodup_singleton _

section Taken

variable {slot gen : Byte} {l : Lane} {ls : Vector LaneRecord 12} {cs : Vector Channel 12} (h : Named s slot gen t)

include h

/-- A ticket without a lane destination is pulled, held by the eye or not. -/
theorem pull_noLane (ht : t.state ≠ .stroking) (hl : t.laneDest = none) (hg : DrainGoesOn s t) :
    exec (.pull slot gen) s = .next (answered { s with
      tt := pulledTable s t
      ind := if s.ind.underEye = some t.slot then { s.ind with underEye := none, blockedLength := 0 } else s.ind }
      .ok []) := by
  refine pull_answered h ht ?_
  rw [pullTicket_noLane (s := s.frameDone) h.slots h.live hg hl, remove_eq, State.disarmOf_of_noLane _ _ hl,
    lanes_releaseOf_none (by unfold Ticket.commitment; split <;> first | exact hl | rfl)]
  rfl

/-- A ticket that no other follows or precedes in its route queue is pulled. -/
theorem pull_lone (ht : t.state ≠ .stroking) (hl : t.laneDest = some l) (hq : ∀ u ∈ s.routeQueue l, u = t)
    (he : s.ind.underEye ≠ some t.slot) (hg : DrainGoesOn s t) (hls : (s.releaseOf t).lanes = ls)
    (hcs : (s.disarmOf t).channels = cs) : exec (.pull slot gen) s =
      .next (answered { s with tt := pulledTable s t, lanes := ls, channels := cs } .ok []) := by
  refine pull_answered h ht ?_
  rw [pullTicket_lone (s := s.frameDone) h.slots h.live hg hl hq,
    remove_pulled (s := s.frameDone) he (lanes_releaseOf_frameDone.trans hls)
      (channels_disarmOf_frameDone.trans hcs)]
  rfl

/-- A ticket ROUTED behind the armed head is pulled, and the head stays armed. -/
theorem pull_behind {a : Armed} {head : Ticket} (ht : t.state = .routed) (hl : t.laneDest = some l)
    (hq : s.routeQueue l = [head, t]) (ha : (s.channel l).armed = some a) (hs : a.slot = head.slot)
    (he : s.ind.underEye ≠ some t.slot) (hg : DrainGoesOn s t) (hls : (s.releaseOf t).lanes = ls) :
    exec (.pull slot gen) s = .next (answered { s with tt := pulledTable s t, lanes := ls } .ok []) := by
  have hne := slot_ne_of_routeQueue h.slots hq
  have unarmed : s.frameDone.disarmOf t = s.frameDone := disarmOf_other hl ha (hs ▸ hne)
  have hr := remove_pulled (s := s.frameDone) he (lanes_releaseOf_frameDone.trans hls) (congrArg State.channels unarmed)
  refine pull_answered h (by rw [ht]; nofun) ?_
  rw [pullTicket_lane (s := s.frameDone) h.slots h.live hg hl]
  have rest : (s.frameDone.remove t .pulled).routeQueue l = [head] := by
    rw [routeQueue_remove]
    show (s.routeQueue l).filter _ = _
    rw [hq]
    simp [hne]
  rw [hr] at rest ⊢
  rw [attendLane_armed _ l rest ha hs]
  rfl

/-- The armed head is pulled, and the ticket behind it armed, its planned fire count being ahead (R117). -/
theorem pull_armedBefore {a : Armed} {n : Ticket} {planned : Count} (hb : ArmedBefore s l a t n)
    (hp : planned = plannedNow s l n) (hr : isReached s.bcu.count planned = false)
    (he : s.ind.underEye ≠ some t.slot) : exec (.pull slot gen) s = .next (answered { s with
      tt := { pulledTable s t with belt := (without s t.slot).map (fun u =>
        if u.slot = n.slot then { u with state := .armed, fireCount := some planned } else u) }
      lanes := tableMod s.lanes l (fun r => { r with committed := r.committed - 1 })
      channels := tableMod s.channels l (fun ch => { ch with
        armed := some { slot := n.slot, lead := s.lead l, planned := planned, lateLimit := none } }) } .ok []) := by
  subst hp
  have hne := slot_ne_of_routeQueue h.slots hb.queue
  obtain ⟨-, hqt⟩ := mem_routeQueue.mp (show t ∈ s.routeQueue l by simp [hb.queue])
  obtain ⟨hn, -⟩ := mem_routeQueue.mp (show n ∈ s.routeQueue l by simp [hb.queue])
  obtain ⟨hl, hw⟩ := queuedAt_iff.mp hqt
  have goesOn : DrainGoesOn s t := fun _ => List.ne_nil_of_mem (List.mem_filter.mpr ⟨hn, by simpa using hne.symm⟩)
  have disarmed : s.frameDone.disarmOf t = _ := disarmOf_armed (s := s.frameDone) hl hb.channel hb.slot
  have removed := remove_pulled (s := s.frameDone) he
    (lanes_releaseOf_some ((commitment_of_waiting hw).trans hl)) (congrArg State.channels disarmed)
  have rest : (s.frameDone.remove t .pulled).routeQueue l = [n] := by
    rw [routeQueue_remove]
    show (s.routeQueue l).filter _ = _
    rw [hb.queue]
    simp [hne.symm]
  refine pull_answered h (by rw [hb.state]; nofun) ?_
  rw [pullTicket_lane (s := s.frameDone) h.slots h.live goesOn hl]
  have lead : (s.frameDone.remove t .pulled).lead l = s.lead l := by
    rw [removed, State.lead, State.lane]
    dsimp only
    rw [tableMod_get_self]
    rfl
  have free : ((s.frameDone.remove t .pulled).channel l).armed = none := by
    rw [removed]
    exact congrArg Channel.armed (tableMod_get_self _ _ _)
  have ahead : isReached (s.frameDone.remove t .pulled).bcu.count
      (n.nominal.getD 0 - BitVec.ofNat 16 ((s.frameDone.remove t .pulled).lead l)) = false := by
    rw [lead, removed]
    exact hr
  rw [attendLane_arms _ l rest free ahead, State.arm]
  dsimp only
  rw [lead, removed]
  simp only [State.modChannel, State.modTicket, tableMod_tableMod]
  rfl

/-- The last live ticket of a drain is pulled, and the drain ends in SETUP (R158). -/
theorem pull_drained (ht : t.state ≠ .stroking) (hm : s.mode = .drain) (hb : s.tt.belt = [t])
    (hls : (s.releaseOf t).lanes = ls) {p : State}
    (hp : p = { s with
      channels := (s.disarmOf t).channels
      ind := if s.ind.underEye = some t.slot then { s.ind with underEye := none, blockedLength := 0 } else s.ind }) :
    ∃ u, exec (.pull slot gen) s = .next u ∧ DrainEnded p u ∧
      u.tt = { s.tt with
        belt := []
        tallies := tableMod s.tt.tallies (tallyIndex t.outlet .pulled) (fun n => min (n + 1) 65535) } ∧
      u.lanes = ls ∧ u.em = s.em ∧ u.sli = (answered s .ok []).sli := by
  have empty : without s t.slot = [] := by simp [without, hb]
  have removed : s.frameDone.remove t .pulled =
      { p with tt := pulledTable s t, lanes := ls, sli := s.frameDone.sli } := by
    rw [remove_eq, lanes_releaseOf_frameDone, hls, channels_disarmOf_frameDone, hp]
    rfl
  obtain ⟨d, c, entered⟩ := enterSetup_eq { p with tt := pulledTable s t, lanes := ls, sli := s.frameDone.sli }
  have retired : s.frameDone.retire t.slot .pulled =
      ({ p with tt := pulledTable s t, lanes := ls, sli := s.frameDone.sli } : State).enterSetup := by
    unfold State.retire
    rw [State.ticketAt?_of_mem (s := s.frameDone) h.slots h.live]
    dsimp only
    rw [removed]
    refine if_pos ⟨?_, empty⟩
    rw [hp]; exact hm
  have pulled : s.frameDone.pullTicket t =
      ({ p with tt := pulledTable s t, lanes := ls, sli := s.frameDone.sli } : State).enterSetup := by
    unfold State.pullTicket
    rw [retired]
    split
    · apply attendLane_empty
      rw [entered]
      show (without s t.slot).filter _ = []
      rw [empty]; rfl
    · rfl
  have hr : ∀ l, (ls.get l).recoveryTime = (p.lane l).recoveryTime := by
    intro l
    have := State.lane_releaseOf s t l
    rw [State.lane, hls] at this
    rw [this, hp]; rfl
  have ended := drainEnded_enterSetup (p := p) (tt := pulledTable s t) (ls := ls) (i := s.frameDone.sli)
    (j := (answered s .ok []).sli) hr empty
  rw [entered] at pulled ended
  have em : p.em = s.em := by rw [hp]
  refine ⟨_, pull_answered h ht (u := { p with
      tt := pulledTable s t, lanes := ls, mc := { p.mc with mode := .setup }, drives := d, channels := c, sli := s.sli })
    pulled, ended, ?_, rfl, em, rfl⟩
  show pulledTable s t = _
  rw [pulledTable, empty]

end Taken

/-! ### CLEAR TALLIES (R36) -/

/-- The lanes' stray counters are cleared. -/
theorem clearTallies_eq (s : State) : ∃ ls, (∀ l : Lane, ls.get l = { s.lane l with strays := 0 }) ∧
    s.clearTallies = { s with
      tt := { s.tt with
        tallies := Vector.replicate 63 0, runOffReasons := Vector.replicate 7 0, untracked := 0 }
      rli := { s.rli with errors := 0, strays := 0 }
      em := { s.em with strays := 0 }
      sli := { s.sli with lineErrors := 0 }
      lanes := ls } := by
  refine ⟨s.clearTallies.lanes, fun l => ?_, ?_⟩
  · refine State.forLanes_read (fun u : State => u.lane l) _ l _ (fun u hu => ?_) (fun u m hm => ?_)
    · rw [State.lane_modLane_self, hu]; rfl
    · rw [State.lane_modLane, if_neg (Ne.symm hm)]
  · refine State.forLanes_keeps (P := fun u => u = { s with
      tt := { s.tt with tallies := Vector.replicate 63 0, runOffReasons := Vector.replicate 7 0, untracked := 0 }
      rli := { s.rli with errors := 0, strays := 0 }
      em := { s.em with strays := 0 }
      sli := { s.sli with lineErrors := 0 }
      lanes := u.lanes }) _ rfl (fun u l hu => ?_)
    rw [hu]; rfl

end Sys2Proof.Machine

open Sys2Proof.Machine Sys2Proof.Safety

/-- Settles O54: each PULL is a removal, whose parts are what its state and its lane make them, and the attending to the
next head; in DRAIN the removal of the last ticket enters SETUP. -/
theorem pullAndClearTallies : Obligations.PullAndClearTallies := by
  intro s hs
  refine ⟨fun slot gen => ⟨pull_notInMode hs, pull_badParam hs, pull_stale hs⟩,
    fun slot gen t hm hd ht hslot hgen => ?_, ?_⟩
  · have h : Named s slot gen t := ⟨hs, hm, hd, ht, hslot, hgen⟩
    have lone : ∀ {l}, s.routeQueue l = [] → ∀ u ∈ s.routeQueue l, u = t := fun hq u hu => by rw [hq] at hu; cases hu
    refine ⟨pull_stroking h, ?_, ?_, ?_, ?_, ?_, ?_, ?_, ?_, ?_⟩
    · intro hns _ _ _ hl hu hg
      have := pull_noLane h hns hl hg
      rwa [if_neg hu.1] at this
    · intro l hst hl hq hu hg
      have hl := laneDest_iff.mpr hl
      exact pull_lone h (by rw [hst]; nofun) hl (lone hq) hu.1 hg
        (lanes_releaseOf_some (by unfold Ticket.commitment; rw [hst]; exact hl))
        (congrArg State.channels (State.disarmOf_of_unarmed s t hu.2))
    · intro l hst hl hq hu hg
      exact pull_lone h (by rw [hst]; nofun) (laneDest_iff.mpr hl) (lone hq) hu.1 hg
        (lanes_releaseOf_none (by unfold Ticket.commitment; rw [hst]))
        (congrArg State.channels (State.disarmOf_of_unarmed s t hu.2))
    · intro l a head hst hl hq ha hah hu hg
      have hl := laneDest_iff.mpr hl
      exact pull_behind h hst hl hq ha hah hu hg (lanes_releaseOf_some ((commitment_of_waiting (.inl hst)).trans hl))
    · intro l a hst ha hat hq hu hg
      obtain ⟨hl, hw⟩ := queuedAt_iff.mp (mem_routeQueue.mp (show t ∈ s.routeQueue l by simp [hq])).2
      exact pull_lone h (by rw [hst]; nofun) hl (fun u hu => by simpa [hq] using hu) hu hg
        (lanes_releaseOf_some ((commitment_of_waiting hw).trans hl))
        (congrArg State.channels (disarmOf_armed hl ha hat))
    · intro l a n planned hb hp hr hu
      exact pull_armedBefore h hb hp hr hu
    · intro hdr hb hst hu
      have unheld : s = { s with
          channels := (s.disarmOf t).channels
          ind := if s.ind.underEye = some t.slot then { s.ind with underEye := none, blockedLength := 0 }
            else s.ind } := by
        rw [State.disarmOf_of_unarmed s t hu.2, if_neg hu.1]
      have free : t.commitment = none := by unfold Ticket.commitment; obtain e | e := hst <;> rw [e]
      exact pull_drained h (by obtain e | e := hst <;> rw [e] <;> nofun) hdr hb (lanes_releaseOf_none free) unheld
    · intro hst hl hu hg
      have := pull_noLane h (by rw [hst]; nofun) hl hg
      rwa [if_pos hu] at this
    · rintro tallies hdr hb rfl
      refine ⟨fun p hst hl hp => ?_, fun l hst hl hu => ?_, fun l a hst hl ha hat hu => ?_⟩
      · refine pull_drained h (by rw [hst]; nofun) hdr hb
          (lanes_releaseOf_none (by unfold Ticket.commitment; rw [hst])) ?_
        rw [State.disarmOf_of_noLane s t hl, hp]
      · have hl := laneDest_iff.mpr hl
        have held : t.commitment = some l := by unfold Ticket.commitment; obtain e | e := hst <;> rw [e] <;> exact hl
        refine pull_drained h (by obtain e | e := hst <;> rw [e] <;> nofun) hdr hb (lanes_releaseOf_some held) ?_
        rw [State.disarmOf_of_unarmed s t hu.2, if_neg hu.1]
      · have hl := laneDest_iff.mpr hl
        refine pull_drained h (by rw [hst]; nofun) hdr hb
          (lanes_releaseOf_some ((commitment_of_waiting (.inr hst)).trans hl)) ?_
        rw [disarmOf_armed hl ha hat, if_neg hu]
        rfl
  · obtain ⟨ls, hls, he⟩ := clearTallies_eq s.frameDone
    refine ⟨_, State.station_answered hs (t := { s with
      tt := { s.tt with
        tallies := Vector.replicate 63 0, runOffReasons := Vector.replicate 7 0, untracked := 0 }
      rli := { s.rli with errors := 0, strays := 0 }
      em := { s.em with strays := 0 }
      sli := { s.sli with lineErrors := 0 }
      lanes := ls }) ?_ rfl, rfl, get_replicate _, get_replicate _, hls⟩
    unfold cmdClearTallies
    rw [he]
    rfl
end

section
/-! The neighbours of a ticket on the belt (R22) and the crowding rule where it splits nothing (R85 to R88). -/

namespace Sys2Proof.Machine

open Sys2Proof.Safety

variable {s : State}

/-! ### Neighbours (R22) -/

/-- The ticket before a slot's stands right before it on the belt. -/
theorem beforeIn_some {b : List Ticket} {k : Slot} {a : Ticket} (h : beforeIn b k = some a) :
    ∃ pre t post, b = pre ++ a :: t :: post ∧ t.slot = k := by
  induction b with
  | nil => cases h
  | cons x b ih =>
    cases b with
    | nil => cases h
    | cons y b =>
      unfold beforeIn at h; split at h
      · exact ⟨[], y, b, by rw [Option.some.inj h]; rfl, ‹_›⟩
      · obtain ⟨pre, t, post, e, hk⟩ := ih h
        exact ⟨x :: pre, t, post, by rw [e]; rfl, hk⟩

/-- The ticket after a slot's stands right after it on the belt. -/
theorem afterIn_some {b : List Ticket} {k : Slot} {c : Ticket} (h : afterIn b k = some c) :
    ∃ pre t post, b = pre ++ t :: c :: post ∧ t.slot = k := by
  induction b with
  | nil => cases h
  | cons x b ih =>
    cases b with
    | nil => cases h
    | cons y b =>
      unfold afterIn at h; split at h
      · exact ⟨[], x, b, by rw [Option.some.inj h]; rfl, ‹_›⟩
      · obtain ⟨pre, t, post, e, hk⟩ := ih h
        exact ⟨x :: pre, t, post, by rw [e]; rfl, hk⟩

/-- A neighbour is another ticket of the belt. -/
theorem slot_ne_of_beforeIn (hd : SlotsDistinct s) {k : Slot} {a : Ticket} (h : beforeIn s.tt.belt k = some a) :
    a ∈ s.tt.belt ∧ a.slot ≠ k := by
  obtain ⟨pre, t, post, e, rfl⟩ := beforeIn_some h
  unfold SlotsDistinct at hd
  rw [e] at hd ⊢
  refine ⟨by simp, fun hs => ?_⟩
  simp [List.nodup_append, hs] at hd

theorem slot_ne_of_afterIn (hd : SlotsDistinct s) {k : Slot} {c : Ticket} (h : afterIn s.tt.belt k = some c) :
    c ∈ s.tt.belt ∧ c.slot ≠ k := by
  obtain ⟨pre, t, post, e, rfl⟩ := afterIn_some h
  unfold SlotsDistinct at hd
  rw [e] at hd ⊢
  refine ⟨by simp, fun hs => ?_⟩
  simp [List.nodup_append, hs] at hd

/-- Records changed in their slots have the same neighbours. -/
theorem beforeIn_map {g : Ticket → Ticket} (hg : ∀ t, (g t).slot = t.slot) (b : List Ticket) (k : Slot) :
    beforeIn (b.map g) k = (beforeIn b k).map g := by
  induction b with
  | nil => rfl
  | cons x b ih =>
    cases b with
    | nil => rfl
    | cons y b =>
      simp only [List.map_cons, beforeIn, hg] at ih ⊢
      split
      · rfl
      · exact ih

theorem afterIn_map {g : Ticket → Ticket} (hg : ∀ t, (g t).slot = t.slot) (b : List Ticket) (k : Slot) :
    afterIn (b.map g) k = (afterIn b k).map g := by
  induction b with
  | nil => rfl
  | cons x b ih =>
    cases b with
    | nil => rfl
    | cons y b =>
      simp only [List.map_cons, afterIn, hg] at ih ⊢
      split
      · rfl
      · exact ih

/-! ### A pair that is not split (R86 to R88) -/

/-- The crowding rule sees the same in two records. -/
structure SameSight (x y : Ticket) : Prop where
  induction : y.induction = x.induction := by rfl
  length : y.length = x.length := by rfl
  cls : y.cls = x.cls := by rfl
  laneDest : y.laneDest = x.laneDest := by rfl
  isPending : y.isPending = x.isPending := by rfl
  waiting : y.waiting = x.waiting := by rfl

theorem wouldSplit_congr {u : State} (hc : u.cat = s.cat) {x y x' y' : Ticket} (hx : SameSight x x')
    (hy : SameSight y y') : u.wouldSplit x' y' = s.wouldSplit x y := by
  have gap : u.guardGap x' = s.guardGap x := by
    unfold State.guardGap State.classRecord
    rw [hx.cls, hc]
  have near : gapBetween x' y' = gapBetween x y := by
    unfold gapBetween
    rw [hx.induction, hx.length, hy.induction]
  have crowds : u.crowded x' y' = s.crowded x y := by
    unfold State.crowded
    rw [near, gap, hx.laneDest, hy.laneDest]
  simp only [State.wouldSplit, crowds, sameLane, Ticket.splittable, hx.laneDest, hx.isPending, hx.waiting, hy.laneDest,
    hy.isPending, hy.waiting]

/-- The rule would not split the pair in these slots. -/
def SlotsApart (s : State) (x y : Slot) : Prop :=
  ∀ tx ty, s.ticketAt? x = some tx → s.ticketAt? y = some ty → s.wouldSplit tx ty = false

theorem sameSight_writeJoined {u : State} {j x : Slot} {b : Bool} {t : Ticket}
    (h : (u.writeJoined j b).ticketAt? x = some t) : ∃ t₀, u.ticketAt? x = some t₀ ∧ SameSight t₀ t := by
  unfold State.writeJoined at h
  rw [State.ticketAt?_modTicket _ _ _ _ (fun t => by split <;> rfl)] at h
  obtain ⟨t₀, h₀, rfl⟩ := Option.map_eq_some_iff.mp h
  refine ⟨t₀, h₀, ?_⟩
  split
  · split
    · exact {}
    · exact {}
  · exact {}

theorem SlotsApart.writeJoined {x y : Slot} (h : SlotsApart s x y) (j : Slot) (b : Bool) :
    SlotsApart (s.writeJoined j b) x y := by
  intro tx ty hx hy
  obtain ⟨tx₀, hx₀, ex⟩ := sameSight_writeJoined hx
  obtain ⟨ty₀, hy₀, ey⟩ := sameSight_writeJoined hy
  exact (wouldSplit_congr (u := s.writeJoined j b) (s := s) rfl ex ey).trans (h tx₀ ty₀ hx₀ hy₀)

/-- A pair that is not split has at most the joined mark of its later ticket written. -/
theorem judgePair_apart {x y : Slot} (h : SlotsApart s x y)
    (hs : ∀ tx ty, s.ticketAt? x = some tx → s.ticketAt? y = some ty → tx.splittable = true ∨ ty.splittable = true) :
    s.judgePair [] x y = s ∨ ∃ b, s.judgePair [] x y = s.writeJoined y b := by
  unfold State.judgePair
  split
  · rename_i tx ty hx hy
    have together := h tx ty hx hy
    split
    · exact .inl rfl
    · rename_i hpassed
      split
      · rename_i hcrowded
        split
        · exact .inr ⟨_, rfl⟩
        · rename_i hlane
          have splits : s.wouldSplit tx ty = true := by
            simpa [State.wouldSplit, hcrowded, hlane, passedOver, hs tx ty hx hy] using hpassed
          rw [splits] at together
          cases together
      · exact .inr ⟨_, rfl⟩
  all_goals exact .inl rfl

/-- The rule on a ticket judges the pair with the ticket before it, if any, then the pair with the one after (R85). -/
theorem crowd_cases (s : State) (k : Slot) (passing : List Slot) : ∃ w,
    (w = s ∨ ∃ a, beforeIn s.tt.belt k = some a ∧ w = s.judgePair passing a.slot k) ∧
    (s.crowd k passing = w ∨ ∃ b, afterIn s.tt.belt k = some b ∧ s.crowd k passing = w.judgePair passing k b.slot) := by
  unfold State.crowd
  cases beforeIn s.tt.belt k with
  | none =>
    cases afterIn s.tt.belt k with
    | none => exact ⟨_, .inl rfl, .inl rfl⟩
    | some b => exact ⟨_, .inl rfl, .inr ⟨b, rfl, rfl⟩⟩
  | some a =>
    cases afterIn s.tt.belt k with
    | none => exact ⟨_, .inr ⟨a, rfl, rfl⟩, .inl rfl⟩
    | some b => exact ⟨_, .inr ⟨a, rfl, rfl⟩, .inr ⟨b, rfl, rfl⟩⟩

/-- A ticket alone on the belt crowds nothing. -/
theorem crowd_lone {t : Ticket} (hb : s.tt.belt = [t]) (k : Slot) (passing : List Slot) :
    s.crowd k passing = s := by
  unfold State.crowd
  rw [hb]
  rfl

end Sys2Proof.Machine
end

section
/-! A ticket that stands through the crowding of its neighbours and the attending to the heads (R76 step 5, R85 to R88,
R117): what other tickets' diverts and retirements leave true of its record. -/

namespace Sys2Proof.Machine

open Sys2Proof.Safety

/-- A property of a ticket's record that the divert operations keep at the counts and leads of `r`: while it waits in a
route queue its planned fire count is ahead, so that it is armed and never fired. -/
structure Steadfast (good : Ticket → Prop) (r : State) : Prop where
  joined {v : Ticket} (b : Bool) : good v → good { v with joined := b }
  disarmed {v : Ticket} : good v →
    good { v with fireCount := none, state := if v.state = .armed then .routed else v.state }
  armed {v : Ticket} {l : Lane} (p : Count) : good v → v.queuedAt l = true →
    good { v with state := .armed, fireCount := some p }
  ahead {v : Ticket} {l : Lane} : good v → v.queuedAt l = true →
    isReached r.now (v.nominal.getD 0 - toCount (r.lead l)) = false

/-- What has become of `r`: the record of slot `k` is as `good` says if it is live, and live where `live` asks so. -/
structure Stands (good : Ticket → Prop) (k : Slot) (live : Prop) (r u : State) : Prop where
  steady : Steady r u
  lead : ∀ l, u.lead l = r.lead l
  record : ∀ v ∈ u.tt.belt, v.slot = k → good v
  present : live → ∃ v ∈ u.tt.belt, v.slot = k

theorem lead_congr {s u : State} {l : Lane} (hl : (u.lane l).latency = (s.lane l).latency) (hb : u.bcu = s.bcu) :
    u.lead l = s.lead l := by
  unfold State.lead
  rw [hl, hb]

/-- The armed ticket of a channel stands in the armed slot (R114). -/
theorem slot_of_armedTicket? {s : State} {l : Lane} {t : Ticket} (h : s.armedTicket? l = some t) :
    ∃ a, (s.channel l).armed = some a ∧ t.slot = a.slot := by
  unfold State.armedTicket? at h
  split at h
  · cases h
  · rename_i a ha
    split at h
    · cases h
    · rename_i v hv
      split at h
      · cases h
        exact ⟨a, ha, (State.ticketAt?_some hv).2⟩
      · cases h

theorem slot_of_armedTicket?_arm {s : State} {l : Lane} {t v : Ticket} (h : (s.arm l t).armedTicket? l = some v) :
    v.slot = t.slot := by
  obtain ⟨a, ha, hs⟩ := slot_of_armedTicket? h
  rw [State.arm, State.channel_modTicket, State.channel_modChannel_self] at ha
  rw [hs, ← Option.some.inj ha]

namespace Stands

variable {good : Ticket → Prop} {k : Slot} {live : Prop} {r u : State}

theorem distinct (h : Stands good k live r u) (hr : SlotsDistinct r) : SlotsDistinct u := h.steady.distinct hr

/-! ### Single updates -/

/-- The belt list as it was. -/
theorem same (h : Stands good k live r u) {w : State} (hs : Steady u w) (hb : w.tt.belt = u.tt.belt := by rfl)
    (hl : ∀ l, (w.lane l).latency = (u.lane l).latency := by intro _; rfl) : Stands good k live r w where
  steady := h.steady.trans hs
  lead l := (lead_congr (hl l) hs.bcu).trans (h.lead l)
  record v hv := h.record v (hb ▸ hv)
  present hp := hb ▸ h.present hp

/-- Records changed so that the one of the slot stays as it is asked to be. -/
theorem modTicket (h : Stands good k live r u) (j : Slot) (f : Ticket → Ticket)
    (hs : ∀ t, (f t).slot = t.slot := by intro _; rfl)
    (hg : j = k → ∀ v ∈ u.tt.belt, v.slot = k → good v → good (f v)) :
    Stands good k live r (u.modTicket j f) where
  steady := h.steady.trans (Steady.modTicket u j f hs)
  lead l := h.lead l
  record v hv hk := by
    obtain ⟨x, hx, rfl⟩ := List.mem_map.mp hv
    split at hk
    · rename_i e
      rw [hs] at hk
      rw [if_pos e]
      exact hg (e.symm.trans hk) x hx hk (h.record x hx hk)
    · rename_i e
      rw [if_neg e]
      exact h.record x hx hk
  present hp := by
    obtain ⟨x, hx, hk⟩ := h.present hp
    refine ⟨_, List.mem_map_of_mem hx, ?_⟩
    split
    · rw [hs, hk]
    · exact hk

/-- Another slot's record changed. -/
theorem modOther (h : Stands good k live r u) {j : Slot} (hj : j ≠ k) (f : Ticket → Ticket)
    (hs : ∀ t, (f t).slot = t.slot := by intro _; rfl) : Stands good k live r (u.modTicket j f) :=
  h.modTicket j f hs (fun e => absurd e hj)

theorem modChannel (h : Stands good k live r u) (l : Lane) (f : Channel → Channel) :
    Stands good k live r (u.modChannel l f) := h.same (Steady.modChannel u l f)

theorem modDrive (h : Stands good k live r u) (l : Lane) (f : Drive → Drive) :
    Stands good k live r (u.modDrive l f) := h.same (Steady.modDrive u l f)

theorem forLanes (h : Stands good k live r u) {f : State → Lane → State}
    (hf : ∀ w l, Stands good k live r w → Stands good k live r (f w l)) : Stands good k live r (u.forLanes f) :=
  State.forLanes_keeps u h hf

/-! ### Tickets -/

theorem releaseOf (h : Stands good k live r u) (t : Ticket) : Stands good k live r (u.releaseOf t) :=
  h.same (Steady.releaseOf u t) (by rw [State.releaseOf_tt]) (fun l => by rw [State.lane_releaseOf])

theorem countRunOff (h : Stands good k live r u) (c : Reason) : Stands good k live r (u.countRunOff c) := by
  refine h.same (Steady.countRunOff u c) ?_ (fun l => ?_)
  · unfold State.countRunOff; split <;> rfl
  · unfold State.countRunOff; split <;> rfl

theorem remove (h : Stands good k live r u) {t : Ticket} (o : TicketOutcome) (hk : live → t.slot ≠ k) :
    Stands good k live r (u.remove t o) where
  steady := h.steady.trans (Steady.remove u t o)
  lead l := (lead_congr (by rw [State.lane_remove]) (Steady.remove u t o).bcu).trans (h.lead l)
  record v hv := h.record v (List.mem_of_mem_filter (State.belt_remove u t o ▸ hv))
  present hp := by
    obtain ⟨v, hv, hs⟩ := h.present hp
    refine ⟨v, ?_, hs⟩
    rw [State.belt_remove, List.mem_filter]
    exact ⟨hv, by simpa [hs] using Ne.symm (hk hp)⟩

theorem drainCheck (h : Stands good k live r u) : Stands good k live r u.drainCheck := by
  refine ite_keeps ?_ h
  have entered := Steady.enterSetup u
  obtain ⟨d, c, he⟩ := enterSetup_eq u
  rw [he] at entered ⊢
  exact h.same entered

theorem retire (h : Stands good k live r u) {j : Slot} (o : TicketOutcome) (hk : live → j ≠ k) :
    Stands good k live r (u.retire j o) := by
  unfold State.retire; split
  · exact h
  · rename_i t ht
    exact (h.remove o (fun hp => (State.ticketAt?_some ht).2 ▸ hk hp)).drainCheck

/-- The end accounting of the ticket itself, which need not live. -/
theorem enterRunningOff (h : Stands good k live r u) {j : Slot} (hk : live → j ≠ k)
    (hg : ∀ v w, good v → good { v with endBounds := some w }) : Stands good k live r (u.enterRunningOff j) := by
  have bounded : Stands good k live r (u.storeBounds j) := h.modTicket _ _ (fun _ => rfl) (fun _ v _ _ hv => hg v _ hv)
  exact ite_keeps (bounded.retire _ hk) bounded

theorem sendToRunOff (h : Stands good k live r u) {j : Slot} (c : Reason) (hj : j ≠ k) :
    Stands good k live r (u.sendToRunOff j c) := by
  have stored : Stands good k live r (((u.modTicket j (fun t => { t with
      state := .runningOff, dest := some .runOff, reason := some c, joined := false, nominal := none
      span := none })).countRunOff c).storeBounds j) :=
    ((h.modOther hj _).countRunOff c).modOther hj _
  exact ite_keeps (stored.retire _ (fun _ => hj)) stored

/-! ### Diverts -/

variable (steadfast : Steadfast good r)

include steadfast

theorem disarm (h : Stands good k live r u) (l : Lane) : Stands good k live r (u.disarm l) := by
  unfold State.disarm; split
  · exact h
  · exact (h.modChannel _ _).modTicket _ _ (fun _ => rfl) (fun _ v _ _ hv => steadfast.disarmed hv)

theorem disarmOf (h : Stands good k live r u) (t : Ticket) : Stands good k live r (u.disarmOf t) := by
  unfold State.disarmOf; split
  · exact ite_keeps (h.disarm steadfast _) h
  · exact h

theorem writeJoined (h : Stands good k live r u) (j : Slot) (b : Bool) : Stands good k live r (u.writeJoined j b) := by
  refine h.modTicket _ _ (fun t => by split <;> rfl) (fun _ v _ _ hv => ?_)
  split
  · exact steadfast.joined b hv
  · exact hv

/-- A head is armed, the ticket itself or another. -/
theorem arm (h : Stands good k live r u) (hr : SlotsDistinct r) {l : Lane} {t : Ticket} (ht : t ∈ u.routeQueue l) :
    Stands good k live r (u.arm l t) := by
  obtain ⟨hm, hq⟩ := mem_routeQueue.mp ht
  refine (h.modChannel l _).modTicket t.slot _ (fun _ => rfl) (fun e v hv hk hg => ?_)
  have : v = t := by
    have hv' := State.ticketAt?_of_mem (h.distinct hr) hv
    rw [hk, ← e, State.ticketAt?_of_mem (h.distinct hr) hm] at hv'
    exact (Option.some.inj hv').symm
  exact steadfast.armed _ hg (this ▸ hq)

omit steadfast

theorem takeFire (h : Stands good k live r u) (l : Lane) {t : Ticket} (ht : t.slot ≠ k) :
    Stands good k live r (u.takeFire l t) := (h.modChannel l _).modOther ht _

theorem beginStroke (h : Stands good k live r u) (l : Lane) {t : Ticket} (ht : t.slot ≠ k) :
    Stands good k live r (u.beginStroke l t) := ((h.takeFire l ht).modChannel _ _).modDrive _ _

theorem extendStroke (h : Stands good k live r u) (l : Lane) {t : Ticket} (ht : t.slot ≠ k) :
    Stands good k live r (u.extendStroke l t) := by
  unfold State.extendStroke; split
  · exact (h.takeFire l ht).modChannel _ _
  · exact ((h.takeFire l ht).modChannel _ _).modDrive _ _

theorem deferFire (h : Stands good k live r u) (l : Lane) {t : Ticket} (ht : t.slot ≠ k) :
    Stands good k live r (u.deferFire l t) := (h.modOther ht _).modChannel _ _

theorem missFire (h : Stands good k live r u) (l : Lane) {t : Ticket} (ht : t.slot ≠ k) :
    Stands good k live r (u.missFire l t) := ((h.modChannel _ _).releaseOf t).sendToRunOff _ ht

/-- Another ticket's fire. -/
theorem fire (h : Stands good k live r u) (l : Lane) (late : Bool)
    (ht : ∀ t, u.armedTicket? l = some t → t.slot ≠ k) : Stands good k live r (u.fire l late) := by
  obtain he | ⟨t, w, ha, hw, hc⟩ := fire_cases u l late
  · rw [he]; exact h
  have ht := ht t ha
  have marked : Stands good k live r w := by
    rw [hw]
    exact ite_keeps (h.modOther ht _) h
  obtain ⟨-, he⟩ | ⟨-, he⟩ | ⟨-, ⟨-, he⟩ | ⟨-, he⟩ | ⟨-, he⟩⟩ := hc <;> rw [he]
  · exact marked
  · exact marked.missFire l ht
  · exact marked.beginStroke l ht
  · exact marked.extendStroke l ht
  · exact marked.deferFire l ht

include steadfast

/-- A head found reached is another ticket: the planned fire count of this one is ahead. -/
theorem attend (hr : SlotsDistinct r) (l : Lane) (n : Nat) (h : Stands good k live r u) :
    Stands good k live r (u.attend n l) := by
  induction n generalizing u with
  | zero => exact h
  | succ n ih =>
    rw [State.attend]
    split
    · exact h
    · rename_i t rest hq
      have ht : t ∈ u.routeQueue l := by simp [hq]
      have armed := h.arm steadfast hr ht
      split
      · exact ite_keeps h (ih (h.disarm steadfast l))
      · split
        · rename_i reached
          have other : t.slot ≠ k := by
            intro e
            obtain ⟨hm, hqueued⟩ := mem_routeQueue.mp ht
            have ahead := steadfast.ahead (h.record t hm e) hqueued
            rw [← h.lead l, State.now, ← h.steady.bcu] at ahead
            rw [State.now, ahead] at reached
            cases reached
          exact ih (armed.fire l true (fun v hv => slot_of_armedTicket?_arm hv ▸ other))
        · exact armed

theorem attendAll (hr : SlotsDistinct r) (h : Stands good k live r u) : Stands good k live r u.attendAll :=
  h.forLanes (fun _ l hw => hw.attend steadfast hr l _)

/-! ### Crowding -/

/-- A split changes a ticket that waits at a lane; this one does not. -/
theorem split (h : Stands good k live r u) (hn : ∀ v, good v → v.splittable = false) (j : Slot) :
    Stands good k live r (u.split j) := by
  unfold State.split; split
  · exact h
  · rename_i t ht
    split
    · rename_i hs
      obtain ⟨hm, hj⟩ := State.ticketAt?_some ht
      have other : j ≠ k := by
        rintro rfl
        rw [hn t (h.record t hm hj)] at hs
        cases hs
      exact ((h.disarmOf steadfast t).releaseOf t).sendToRunOff _ other
    · exact h

theorem judgePair (h : Stands good k live r u) (hn : ∀ v, good v → v.splittable = false) (passing : List Slot)
    (x y : Slot) : Stands good k live r (u.judgePair passing x y) := by
  unfold State.judgePair; split
  · refine ite_keeps h (ite_keeps (ite_keeps (h.writeJoined steadfast _ _) ?_) (h.writeJoined steadfast _ _))
    exact ((h.writeJoined steadfast _ _).split steadfast hn _).split steadfast hn _
  all_goals exact h

/-- The crowding rule on a ticket that no split changes. -/
theorem crowd_unsplittable (h : Stands good k live r u) (hn : ∀ v, good v → v.splittable = false) (j : Slot) :
    Stands good k live r (u.crowd j []) := by
  obtain ⟨w, hw, he⟩ := crowd_cases u j []
  have before : Stands good k live r w := by
    obtain rfl | ⟨a, -, rfl⟩ := hw
    · exact h
    · exact h.judgePair steadfast hn _ _ _
  obtain he | ⟨b, -, he⟩ := he <;> rw [he]
  · exact before
  · exact before.judgePair steadfast hn _ _ _

/-- The crowding rule on a ticket that waits at a lane and would be split from neither neighbour: at most joined marks
are written. -/
theorem crowd_apart (h : Stands good k live r u) (hs : ∀ v, good v → v.splittable = true)
    (hb : ∀ a, beforeIn u.tt.belt k = some a → SlotsApart u a.slot k)
    (ha : ∀ b, afterIn u.tt.belt k = some b → SlotsApart u k b.slot) : Stands good k live r (u.crowd k []) := by
  have splits : ∀ {w : State} {v : Ticket}, Stands good k live r w → w.ticketAt? k = some v → v.splittable = true :=
    fun hw hv => hs _ (hw.record _ (State.ticketAt?_some hv).1 (State.ticketAt?_some hv).2)
  obtain ⟨w, hw, he⟩ := crowd_cases u k []
  have first : w = u ∨ ∃ b, w = u.writeJoined k b := by
    obtain rfl | ⟨a, hbefore, rfl⟩ := hw
    · exact .inl rfl
    · exact judgePair_apart (hb a hbefore) (fun _ _ _ hv => .inr (splits h hv))
  have before : Stands good k live r w := by
    obtain rfl | ⟨b, rfl⟩ := first
    · exact h
    · exact h.writeJoined steadfast _ _
  obtain he | ⟨b, hafter, he⟩ := he <;> rw [he]
  · exact before
  · have apart : SlotsApart w k b.slot := by
      obtain rfl | ⟨j, rfl⟩ := first
      · exact ha b hafter
      · exact (ha b hafter).writeJoined _ _
    obtain e | ⟨j, e⟩ := judgePair_apart apart (fun _ _ hv _ => .inl (splits before hv)) <;> rw [e]
    · exact before
    · exact before.writeJoined steadfast _ _

end Stands
end Sys2Proof.Machine
end

section
/-! REDIRECT (R37, R38, R90): its tests in turn, and what the station answers once they are passed. -/

namespace Sys2Proof.Machine

open Sys2Proof.Safety

variable {s : State} {t : Ticket} {l : Lane}

/-! ### Reading the target -/

/-- A target's number is read as that target (R37). -/
theorem destParam?_number (d : Dest) : destParam? d.number = some d := by
  cases d with
  | runOff => rfl
  | lane l =>
    unfold destParam? Dest.number
    rw [if_neg (Nat.succ_ne_zero _), laneParam?_eq rfl]
    rfl

theorem destParam?_none {n : Nat} (h : 12 < n) : destParam? n = none := by
  unfold destParam?
  rw [if_neg (by omega), laneParam?_none (.inr h)]
  rfl

theorem code_of_number {d : Dest} {b : Byte} (h : d.number = b.toNat) : d.code = b := by
  unfold Dest.code
  rw [h, byteOf_toNat]

/-! ### The tests (R37, R90) -/

theorem redirectable_of (h : Redirectable s t) : s.redirectable t = true := by
  unfold State.redirectable
  obtain h | h | ⟨h, ha⟩ := h <;> rw [h]
  show (!s.deferredOutstanding t) = true
  unfold State.deferredOutstanding
  cases hl : t.laneDest with
  | none => rfl
  | some l =>
    cases hc : (s.channel l).armed with
    | none => simp [hc]
    | some a =>
      by_cases e : a.slot = t.slot
      · simp [hc, ha l a (laneDest_iff.mp hl) hc e]
      · simp [hc, e]

theorem redirectable_deferred {a : Armed} {limit : Count} (h : DeferredAlone s l a t limit) :
    t.laneDest = some l ∧ s.redirectable t = false := by
  obtain ⟨hl, -⟩ := queuedAt_iff.mp (mem_routeQueue.mp (show t ∈ s.routeQueue l by simp [h.queue])).2
  refine ⟨hl, ?_⟩
  unfold State.redirectable State.deferredOutstanding
  rw [h.state, hl]
  simp [h.channel, h.slot, h.deferred]

theorem targetEligible_frameDone (d : Dest) : s.frameDone.targetEligible t d = s.targetEligible t d := by
  cases d with
  | runOff => rfl
  | lane l =>
    unfold State.targetEligible State.releaseOf
    cases t.commitment <;> rfl

/-- A ticket that follows one bound for another lane too closely would be split from it at that lane (R86, R90). -/
theorem redirectSplits_of_tooClose {m : Lane} {x : Ticket} (hb : s.tt.belt = [x, t])
    (hx : x.state = .routed ∨ x.state = .armed) (hd : x.dest = some (.lane m)) (hm : m ≠ l) (hc : TooClose s x t) :
    s.redirectSplits t (.lane l) = true := by
  obtain ⟨c, hcls, hgap⟩ := hc
  have before : beforeIn s.tt.belt t.slot = some x := by rw [hb]; exact if_pos rfl
  have lane : x.laneDest = some m := laneDest_iff.mpr hd
  have close : gapBetween x (t.aimedAt (.lane l)) < s.guardGap x := by
    unfold gapBetween State.guardGap toCount Ticket.aimedAt
    rw [hcls]
    dsimp only
    omega
  have waiting : x.waiting = true ∧ x.isPending = false := by
    unfold Ticket.waiting Ticket.isPending
    obtain e | e := hx <;> rw [e] <;> exact ⟨rfl, rfl⟩
  have aimed : (t.aimedAt (.lane l)).laneDest = some l ∧ (t.aimedAt (.lane l)).isPending = false := ⟨rfl, rfl⟩
  have splits : s.wouldSplit x (t.aimedAt (.lane l)) = true := by
    simp [State.wouldSplit, State.crowded, sameLane, Ticket.splittable, close, lane, waiting, hm, aimed]
  unfold State.redirectSplits
  rw [before]
  simp [splits]

/-- A ticket alone on the belt is split from nothing. -/
theorem redirectSplits_lone (hb : s.tt.belt = [t]) (d : Dest) : s.redirectSplits t d = false := by
  unfold State.redirectSplits
  rw [hb]
  rfl

section Refused

variable {slot gen lane : Byte} (h : Listening s)

include h

theorem redirect_notInMode (hm : s.mode = .setup) :
    exec (.redirect slot gen lane) s = .next (answered s .notInMode []) := by
  refine State.station_answered h ?_ rfl
  unfold cmdRedirect
  exact if_pos hm

theorem redirect_badParam (hm : s.mode ≠ .setup) (hr : 127 < slot.toNat ∨ 15 < gen.toNat ∨ 12 < lane.toNat) :
    exec (.redirect slot gen lane) s = .next (answered s .badParam []) := by
  refine State.station_answered h ?_ rfl
  unfold cmdRedirect
  rw [if_neg (show s.frameDone.mode ≠ .setup from hm)]
  cases hh : handleInRange slot gen with
  | false => rfl
  | true =>
    have far : 12 < lane.toNat := by
      simp only [handleInRange, Bool.and_eq_true, decide_eq_true_eq] at hh
      omega
    rw [destParam?_none far]
    rfl

theorem redirect_stale (hm : s.mode ≠ .setup) (hs : slot.toNat ≤ 127) (hg : gen.toNat ≤ 15) (hl : lane.toNat ≤ 12)
    (hn : ∀ t ∈ s.tt.belt, t.slot.val = slot.toNat → t.generation.toNat ≠ gen.toNat) :
    exec (.redirect slot gen lane) s = .next (answered s .stale []) := by
  obtain ⟨d, hd⟩ : ∃ d : Dest, d.number = lane.toNat := by
    obtain e | e := Nat.eq_zero_or_pos lane.toNat
    · exact ⟨.runOff, e.symm⟩
    · exact ⟨.lane ⟨lane.toNat - 1, by omega⟩, by show lane.toNat - 1 + 1 = _; omega⟩
  refine State.station_answered h ?_ rfl
  unfold cmdRedirect
  rw [if_neg (show s.frameDone.mode ≠ .setup from hm), handleInRange_true hs hg, ← hd, destParam?_number,
    named?_none (s := s.frameDone) hn]
  rfl

end Refused

section Tested

variable {slot gen lane : Byte} {d : Dest} (h : Named s slot gen t) (hd : d.number = lane.toNat)

include h hd

theorem cmdRedirect_named : cmdRedirect slot gen lane s.frameDone =
    if !s.redirectable t then (s.frameDone, { status := .state, data := t.placeChars })
    else if !s.targetEligible t d then s.frameDone.refuse .lane
    else if s.redirectSplits t d then s.frameDone.refuse .crowded
    else (s.frameDone.applyRedirect t d,
      { status := .ok, data := (s.frameDone.applyRedirect t d).placeAfter t.slot }) := by
  obtain ⟨hr, hn⟩ := named?_eq (s := s.frameDone) h.slots h.live h.slot h.generation
  unfold cmdRedirect
  rw [if_neg (show s.frameDone.mode ≠ .setup from h.mode), hr, hn, ← hd, destParam?_number, ← targetEligible_frameDone]
  rfl

theorem redirect_state (hr : s.redirectable t = false) :
    exec (.redirect slot gen lane) s = .next (answered s .state t.placeChars) := by
  refine State.station_answered h.listening ?_ rfl
  rw [cmdRedirect_named h hd, hr]
  rfl

theorem redirect_lane (hr : s.redirectable t = true) (he : s.targetEligible t d = false) :
    exec (.redirect slot gen lane) s = .next (answered s .lane []) := by
  refine State.station_answered h.listening ?_ rfl
  rw [cmdRedirect_named h hd, hr, he]
  rfl

theorem redirect_crowded (hr : s.redirectable t = true) (he : s.targetEligible t d = true)
    (hs : s.redirectSplits t d = true) : exec (.redirect slot gen lane) s = .next (answered s .crowded []) := by
  refine State.station_answered h.listening ?_ rfl
  rw [cmdRedirect_named h hd, hr, he, hs]
  rfl

/-- With every test passed the ticket is redirected. -/
theorem cmdRedirect_passed (hr : s.redirectable t = true) (he : s.targetEligible t d = true)
    (hs : s.redirectSplits t d = false) : cmdRedirect slot gen lane s.frameDone = (s.frameDone.applyRedirect t d,
      { status := .ok, data := (s.frameDone.applyRedirect t d).placeAfter t.slot }) := by
  rw [cmdRedirect_named h hd, hr, he, hs]
  rfl

/-- The redirection answered, where the state it leads to is known. -/
theorem redirect_answered (hr : s.redirectable t = true) (he : s.targetEligible t d = true)
    (hs : s.redirectSplits t d = false) {u : State} (hu : s.frameDone.applyRedirect t d = u.frameDone)
    {data : List Byte} (hp : u.placeAfter t.slot = data) (ha : u.sli.address = s.sli.address := by rfl) :
    exec (.redirect slot gen lane) s = .next (answered u .ok data) := by
  refine State.station_answered h.listening ?_ ha
  rw [cmdRedirect_passed h hd hr he hs, hu, ← hp]
  rfl

end Tested

theorem Steady.redirectToRunOff (s : State) (t : Ticket) : Steady s (s.redirectToRunOff t) := by
  unfold State.redirectToRunOff; split
  · exact Steady.sendToRunOff _ _ _
  · exact Steady.modTicket _ _ _

theorem Steady.applyRedirect (s : State) (t : Ticket) (d : Dest) : Steady s (s.applyRedirect t d) := by
  have released := ((Steady.disarmOf s t).trans (Steady.releaseOf _ t)).trans
    (Steady.modTicket _ t.slot (fun t => { t with hops := 0, marks := {}, fireCount := none }))
  unfold State.applyRedirect
  cases d with
  | lane l =>
    exact ((released.trans (Steady.giveLane _ _ _ _ _ _)).trans (Steady.crowd _ _ _)).trans (Steady.attendAll _)
  | runOff =>
    exact ((released.trans (Steady.redirectToRunOff _ _)).trans (Steady.crowd _ _ _)).trans (Steady.attendAll _)

/-- With every test passed the redirection stands, and the reply tells the ticket's place after it. -/
theorem redirect_taken {slot gen lane : Byte} {d : Dest} (h : Named s slot gen t) (hd : d.number = lane.toNat)
    (hr : s.redirectable t = true) (he : s.targetEligible t d = true) (hs : s.redirectSplits t d = false) {p : State}
    (hp : s.frameDone.applyRedirect t d = p) : exec (.redirect slot gen lane) s = .next { p with
      sli := { p.sli with reply := some { status := .ok, data := p.placeAfter t.slot }, quietTimer := 0 } } := by
  subst hp
  show s.station (cmdRedirect slot gen lane) = _
  have addressed : (s.frameDone.applyRedirect t d).sli.address ≠ 0 := by
    rw [(Steady.applyRedirect s.frameDone t d).sli]
    exact h.listening.addressed
  rw [State.station_listening h.listening, State.takeCommand, cmdRedirect_passed h hd hr he hs, State.replyDue,
    if_neg addressed]

end Sys2Proof.Machine
end

section
/-! What REDIRECT makes of the ticket's record (R38), at a lane and at run-off, and why the divert operations keep it. -/

namespace Sys2Proof.Machine

open Sys2Proof.Safety

variable {s : State} {t : Ticket} {l : Lane}

/-! ### The disarming and the release (R38) -/

/-- If the ticket is armed at its lane the channel and its record are disarmed, else nothing is (R118). -/
theorem disarmOf_cases (s : State) (t : Ticket) : s.disarmOf t = s ∨
    ∃ m, s.disarmOf t = (s.modChannel m (fun c => { c with armed := none })).modTicket t.slot
      (fun u => { u with fireCount := none, state := if u.state = .armed then .routed else u.state }) := by
  cases hl : t.laneDest with
  | none => exact .inl (State.disarmOf_of_noLane s t hl)
  | some m =>
    cases ha : (s.channel m).armed with
    | none => exact .inl (by simp [State.disarmOf, State.armsSlot, hl, ha])
    | some a =>
      by_cases e : a.slot = t.slot
      · exact .inr ⟨m, disarmOf_armed hl ha e⟩
      · exact .inl (disarmOf_other hl ha e)

/-- The ticket's channel and commitment are let go, and its record is written over as if it had never been armed. -/
theorem released_modTicket {g : Ticket → Ticket}
    (hg : ∀ v, g { v with fireCount := none, state := if v.state = .armed then .routed else v.state } = g v) :
    ((s.disarmOf t).releaseOf t).modTicket t.slot g =
      { s.modTicket t.slot g with lanes := (s.releaseOf t).lanes, channels := (s.disarmOf t).channels } := by
  have released : ((s.disarmOf t).releaseOf t).modTicket t.slot g =
      { (s.disarmOf t).modTicket t.slot g with lanes := (s.releaseOf t).lanes } := by
    rw [releaseOf_eq, lanes_releaseOf_congr (State.lanes_disarmOf s t)]
    rfl
  rw [released]
  obtain e | ⟨m, e⟩ := disarmOf_cases s t <;> rw [e]
  · rfl
  · rw [State.modTicket_modTicket _ _ _ _ (by intro _; rfl)]
    simp only [hg]
    rfl

/-! ### To a lane (R81) -/

/-- The record of a ticket redirected to a lane (R38, R81). -/
def redirectedTo (s : State) (l : Lane) (t : Ticket) : Ticket :=
  { t with
    state := .routed, dest := some (.lane l), reason := some .redirected, hops := 0, joined := false, marks := {}
    nominal := some (s.nominalAt t (t.cls.getD 0) l), fireCount := none, span := some (spanOf s t (t.cls.getD 0))
    endBounds := none }

/-- The state in which a ticket has been given its target lane, before the crowding rule is applied to it. -/
def placedAt (s : State) (t : Ticket) (l : Lane) : State :=
  { s.modTicket t.slot (fun _ => redirectedTo s l t) with
    lanes := tableMod (s.releaseOf t).lanes l (fun r => { r with committed := r.committed + 1 })
    channels := (s.disarmOf t).channels }

theorem nominalAt_congr {u : State} (hl : (u.lane l).distance = (s.lane l).distance) (hc : u.cat = s.cat)
    (v : Ticket) (c : WareClass) : u.nominalAt v c l = s.nominalAt v c l := by
  unfold State.nominalAt State.classRecord
  rw [hl, hc]

theorem applyRedirect_lane (hd : SlotsDistinct s) (ht : t ∈ s.tt.belt) :
    s.applyRedirect t (.lane l) = ((placedAt s t l).crowd t.slot []).attendAll := by
  refine congrArg (fun u => (State.crowd u t.slot []).attendAll) ?_
  have cleared := (Steady.disarmOf s t).trans (Steady.releaseOf _ t)
  have lanes : ((s.disarmOf t).releaseOf t).lanes = (s.releaseOf t).lanes :=
    lanes_releaseOf_congr (State.lanes_disarmOf s t)
  have distance : (((s.disarmOf t).releaseOf t).lane l).distance = (s.lane l).distance := by
    rw [State.lane_releaseOf, State.lane, State.lanes_disarmOf]
    rfl
  have nominal := nominalAt_congr distance cleared.cat t (t.cls.getD 0)
  have span : strokeSpan (t.length.getD 0) (((s.disarmOf t).releaseOf t).classRecord (t.cls.getD 0)) =
      spanOf s t (t.cls.getD 0) := by
    unfold State.classRecord
    rw [cleared.cat]
    rfl
  have fused := fun g => State.modTicket_modTicket ((s.disarmOf t).releaseOf t) t.slot
    (fun t => { t with hops := 0, marks := {}, fireCount := none }) g (fun _ => rfl)
  unfold State.giveLane
  calc _ = { ((s.disarmOf t).releaseOf t).modTicket t.slot _ with
          lanes := tableMod ((s.disarmOf t).releaseOf t).lanes l (fun r => { r with committed := r.committed + 1 }) } :=
        congrArg (fun u : State => { u with
          lanes := tableMod ((s.disarmOf t).releaseOf t).lanes l (fun r => { r with committed := r.committed + 1 }) })
          (fused _)
    _ = placedAt s t l := by
      rw [released_modTicket (by intro _; rfl), lanes, modTicket_congr (g := fun _ => redirectedTo s l t) hd ht rfl]
      · rfl
      · unfold redirectedTo
        rw [← nominal, ← span]
        rfl

/-! ### To run-off (R82) -/

/-- The record of a ticket redirected from a lane to run-off, before its end accounting (R38, R82). -/
def redirectedOff (t : Ticket) : Ticket :=
  { t with
    state := .runningOff, dest := some .runOff, reason := some .redirected, hops := 0, joined := false, marks := {}
    nominal := none, fireCount := none, span := none }

/-- The state in which a ticket bound for a lane has been taken off it, before its end accounting. -/
def takenOff (s : State) (t : Ticket) : State :=
  { s.modTicket t.slot (fun _ => redirectedOff t) with
    lanes := (s.releaseOf t).lanes
    channels := (s.disarmOf t).channels }

theorem applyRedirect_off (hd : SlotsDistinct s) (ht : t ∈ s.tt.belt) (hl : t.laneDest = some l) :
    s.applyRedirect t .runOff =
      ((((takenOff s t).countRunOff .redirected).enterRunningOff t.slot).crowd t.slot []).attendAll := by
  refine congrArg (fun u => (State.crowd u t.slot []).attendAll) ?_
  dsimp only
  unfold State.redirectToRunOff State.sendToRunOff
  rw [hl]
  dsimp only
  rw [State.modTicket_modTicket _ _ _ _ (by intro _; rfl), released_modTicket (by intro _; rfl),
    modTicket_congr (g := fun _ => redirectedOff t) hd ht rfl (by rfl)]
  rfl

/-- A ticket at run-off already keeps its place (R38). -/
theorem applyRedirect_stays (hd : SlotsDistinct s) (ht : t ∈ s.tt.belt) (hl : t.laneDest = none) :
    s.applyRedirect t .runOff = State.attendAll (State.crowd (s.modTicket t.slot (fun _ => { t with
      reason := some .redirected, hops := 0, joined := false, marks := {}, fireCount := none })) t.slot []) := by
  have free : t.commitment = none := by
    unfold Ticket.commitment
    split <;> first | exact hl | rfl
  have held : (s.disarmOf t).releaseOf t = s := by
    rw [State.disarmOf_of_noLane s t hl]
    unfold State.releaseOf
    rw [free]
  unfold State.applyRedirect State.redirectToRunOff
  rw [hl, held]
  dsimp only
  rw [State.modTicket_modTicket _ _ _ _ (by intro _; rfl)]
  exact congrArg (fun u => (State.crowd u t.slot []).attendAll) (modTicket_congr hd ht rfl rfl)

/-! ### What stands of it -/

/-- One record written over. -/
theorem Stands.ofWritten {good : Ticket → Prop} {live : Prop} {x : Ticket} {ls : Vector LaneRecord 12}
    {cs : Vector Channel 12} (hd : SlotsDistinct s) (ht : t ∈ s.tt.belt) (hx : x.slot = t.slot)
    (hg : good x)
    (hl : ∀ m, (ls.get m).latency = (s.lane m).latency) : Stands good t.slot live s
      { s.modTicket t.slot (fun _ => x) with lanes := ls, channels := cs } where
  steady := by
    have kept : s.modTicket t.slot (fun _ => x) = s.modTicket t.slot (fun v => { x with slot := v.slot }) :=
      modTicket_congr hd ht rfl (by rw [← hx])
    rw [kept]
    exact { Steady.modTicket s t.slot (fun v => { x with slot := v.slot }) (fun _ => rfl) with }
  lead m := lead_congr (hl m) rfl
  record v hv hk := by
    obtain ⟨w, hw, rfl⟩ := List.mem_map.mp hv
    dsimp only at hk ⊢
    split
    · exact hg
    · rename_i e
      rw [if_neg e] at hk
      exact absurd hk e
  present _ := by
    refine ⟨x, List.mem_map.mpr ⟨t, ht, ?_⟩, hx⟩
    exact if_pos rfl

/-- The record of a ticket redirected to a lane, ROUTED or ARMED there. -/
structure RedirectedTo (s : State) (l : Lane) (t v : Ticket) : Prop where
  waiting : v.state = .routed ∨ v.state = .armed
  record : { v with state := .routed, joined := false, fireCount := none } = redirectedTo s l t

/-- An eligible target is reachable, the ticket's own commitment counted or not (R37, R78). -/
theorem reachable_of_targetEligible (h : s.targetEligible t (.lane l) = true) :
    s.reachable t (t.cls.getD 0) l = true := by
  have reach : (s.releaseOf t).reachable t (t.cls.getD 0) l = true := by
    unfold State.targetEligible State.eligible at h
    exact (Bool.and_eq_true_iff.mp h).2
  have released := Steady.releaseOf s t
  have record := State.lane_releaseOf s t l
  unfold State.reachable at reach ⊢
  rwa [lead_congr (by rw [record]) released.bcu,
    nominalAt_congr (by rw [record]) released.cat, State.now, released.bcu] at reach

/-- A reachable lane is more than the lead ahead: the planned fire count is not reached (R79, R117). -/
theorem not_reached_of_reachable {c : WareClass} (reach : s.reachable t c l = true) :
    isReached s.now (s.nominalAt t c l - toCount (s.lead l)) = false := by
  have bound : s.lead l ≤ 255 := Nat.min_le_right _ _
  have ahead : (s.lead l : Int) + 8 < signedDiff s.now (s.nominalAt t c l) := of_decide_eq_true reach
  rw [Bool.eq_false_iff, Ne, isReached_iff]
  generalize s.nominalAt t c l = n at ahead ⊢
  generalize s.lead l = k at *
  generalize s.now = now at ahead ⊢
  rw [signedDiff_eq] at ahead
  have hn := n.isLt
  have hnow := now.isLt
  simp only [toCount, BitVec.toNat_sub, BitVec.toNat_ofNat] at ahead ⊢
  split at ahead <;> omega

theorem steadfast_redirectedTo (h : s.reachable t (t.cls.getD 0) l = true) : Steadfast (RedirectedTo s l t) s where
  joined _ hv := ⟨hv.waiting, hv.record⟩
  disarmed {v} hv := by
    refine ⟨?_, hv.record⟩
    obtain e | e := hv.waiting <;> simp [e]
  armed _ hv _ := ⟨.inr rfl, hv.record⟩
  ahead {v m} hv hq := by
    have nominal : v.nominal = some _ := congrArg Ticket.nominal hv.record
    have dest : v.dest = some (.lane l) := congrArg Ticket.dest hv.record
    obtain rfl : m = l := by
      have := (queuedAt_iff.mp hq).1
      rw [laneDest_iff.mpr dest] at this
      exact (Option.some.inj this).symm
    rw [nominal]
    exact not_reached_of_reachable h

/-- The record of a ticket redirected to run-off. -/
structure RedirectedOff (v : Ticket) : Prop where
  state : v.state = .runningOff
  dest : v.dest = some .runOff
  reason : v.reason = some .redirected
  hops : v.hops = 0
  marks : v.marks = {}
  fireCount : v.fireCount = none

theorem RedirectedOff.not_queued {v : Ticket} (h : RedirectedOff v) (m : Lane) : v.queuedAt m = false := by
  unfold Ticket.queuedAt
  rw [h.state]
  simp

theorem RedirectedOff.not_splittable {v : Ticket} (h : RedirectedOff v) : v.splittable = false := by
  unfold Ticket.splittable Ticket.waiting
  rw [h.state]
  simp

theorem steadfast_redirectedOff : Steadfast RedirectedOff s where
  joined _ hv := ⟨hv.state, hv.dest, hv.reason, hv.hops, hv.marks, hv.fireCount⟩
  disarmed hv := ⟨by simp [hv.state], hv.dest, hv.reason, hv.hops, hv.marks, rfl⟩
  armed _ hv hq := by
    rw [hv.not_queued] at hq
    cases hq
  ahead hv hq := by
    rw [hv.not_queued] at hq
    cases hq

end Sys2Proof.Machine
end

section
/-! REDIRECT taken (R38): whatever else is on the belt, and shown whole for a ticket alone on it. -/

namespace Sys2Proof.Machine

open Sys2Proof.Safety

variable {s : State} {t : Ticket} {l : Lane}

/-! ### Whatever else is on the belt -/

theorem latency_released (s : State) (t : Ticket) (m : Lane) :
    ((s.releaseOf t).lanes.get m).latency = (s.lane m).latency := by
  rw [show (s.releaseOf t).lanes.get m = (s.releaseOf t).lane m from rfl, State.lane_releaseOf]

theorem stands_placedAt (hd : SlotsDistinct s) (ht : t ∈ s.tt.belt) (l : Lane) :
    Stands (RedirectedTo s l t) t.slot True s (placedAt s t l) := by
  refine Stands.ofWritten hd ht rfl ⟨.inl rfl, rfl⟩ (fun m => ?_)
  rw [tableMod_get]
  split
  · rename_i e
    rw [e]
    exact latency_released s t l
  · exact latency_released s t m

/-- The neighbours' records are as they were, and the crowding rule sees the redirected one as the aimed one. -/
theorem placedAt_apart (hd : SlotsDistinct s) (ht : t ∈ s.tt.belt) (hs : s.redirectSplits t (.lane l) = false) :
    (∀ a, beforeIn (placedAt s t l).tt.belt t.slot = some a → SlotsApart (placedAt s t l) a.slot t.slot) ∧
      ∀ b, afterIn (placedAt s t l).tt.belt t.slot = some b → SlotsApart (placedAt s t l) t.slot b.slot := by
  have distinct := (stands_placedAt hd ht l).distinct hd
  have slots : ∀ v : Ticket, (if v.slot = t.slot then redirectedTo s l t else v).slot = v.slot := by
    intro v
    split
    · exact Eq.symm ‹_›
    · rfl
  have placed : ∀ v, v ∈ s.tt.belt → v.slot ≠ t.slot → (placedAt s t l).ticketAt? v.slot = some v := by
    intro v hv hne
    exact State.ticketAt?_of_mem distinct (List.mem_map.mpr ⟨v, hv, if_neg hne⟩)
  have own : (placedAt s t l).ticketAt? t.slot = some (redirectedTo s l t) :=
    State.ticketAt?_of_mem (t := redirectedTo s l t) distinct (List.mem_map.mpr ⟨t, ht, if_pos rfl⟩)
  have aimed : SameSight (t.aimedAt (.lane l)) (redirectedTo s l t) := {}
  unfold State.redirectSplits at hs
  obtain ⟨hbefore, hafter⟩ := Bool.or_eq_false_iff.mp hs
  constructor
  · intro a ha
    rw [show (placedAt s t l).tt.belt = s.tt.belt.map _ from rfl, beforeIn_map slots] at ha
    obtain ⟨v, hv, rfl⟩ := Option.map_eq_some_iff.mp ha
    obtain ⟨hm, hne⟩ := slot_ne_of_beforeIn hd hv
    rw [hv] at hbefore
    intro tx ty hx hy
    rw [if_neg hne, placed v hm hne] at hx
    rw [own] at hy
    cases hx
    cases hy
    exact (wouldSplit_congr (s := s) (u := placedAt s t l) rfl {} aimed).trans hbefore
  · intro b hb
    rw [show (placedAt s t l).tt.belt = s.tt.belt.map _ from rfl, afterIn_map slots] at hb
    obtain ⟨v, hv, rfl⟩ := Option.map_eq_some_iff.mp hb
    obtain ⟨hm, hne⟩ := slot_ne_of_afterIn hd hv
    rw [hv] at hafter
    intro tx ty hx hy
    rw [if_neg hne, placed v hm hne] at hy
    rw [own] at hx
    cases hx
    cases hy
    exact (wouldSplit_congr (s := s) (u := placedAt s t l) rfl aimed {}).trans hafter

/-- A ticket redirected to a lane stays live, ROUTED or ARMED there. -/
theorem stands_redirectedTo (hd : SlotsDistinct s) (ht : t ∈ s.tt.belt) (he : s.targetEligible t (.lane l) = true)
    (hs : s.redirectSplits t (.lane l) = false) :
    Stands (RedirectedTo s l t) t.slot True s (s.applyRedirect t (.lane l)) := by
  have steadfast := steadfast_redirectedTo (reachable_of_targetEligible he)
  obtain ⟨hbefore, hafter⟩ := placedAt_apart hd ht hs
  rw [applyRedirect_lane hd ht]
  refine Stands.attendAll steadfast hd (Stands.crowd_apart steadfast (stands_placedAt hd ht l) ?_ hbefore hafter)
  intro v hv
  have dest : v.dest = some (.lane l) := congrArg Ticket.dest hv.record
  unfold Ticket.splittable Ticket.waiting
  rw [laneDest_iff.mpr dest]
  obtain e | e := hv.waiting <;> rw [e] <;> rfl

/-- A ticket redirected to run-off is RUNNING_OFF there as long as it lives. -/
theorem stands_redirectedOff (hd : SlotsDistinct s) (ht : t ∈ s.tt.belt)
    (hk : t.laneDest = none → t.state = .runningOff ∧ t.dest = some .runOff) :
    Stands RedirectedOff t.slot False s (s.applyRedirect t .runOff) := by
  have crowded : ∀ {u : State}, Stands RedirectedOff t.slot False s u →
      Stands RedirectedOff t.slot False s (u.crowd t.slot []).attendAll := fun hu =>
    Stands.attendAll steadfast_redirectedOff hd
      (Stands.crowd_unsplittable steadfast_redirectedOff hu (fun _ hv => hv.not_splittable) _)
  cases hl : t.laneDest with
  | none =>
    obtain ⟨hstate, hdest⟩ := hk hl
    rw [applyRedirect_stays hd ht hl]
    exact crowded (Stands.ofWritten (ls := s.lanes) (cs := s.channels) hd ht rfl ⟨hstate, hdest, rfl, rfl, rfl, rfl⟩
      (fun _ => rfl))
  | some m =>
    rw [applyRedirect_off hd ht hl]
    have taken : Stands RedirectedOff t.slot False s (takenOff s t) :=
      Stands.ofWritten hd ht rfl ⟨rfl, rfl, rfl, rfl, rfl, rfl⟩ (latency_released s t)
    exact crowded ((taken.countRunOff _).enterRunningOff False.elim
      (fun v w hv => ⟨hv.state, hv.dest, hv.reason, hv.hops, hv.marks, hv.fireCount⟩))

/-! ### Alone on the belt -/

theorem routeQueue_lone {v : Ticket} (hb : s.tt.belt = [v]) (m : Lane) :
    s.routeQueue m = if v.queuedAt m = true then [v] else [] := by
  unfold State.routeQueue
  rw [hb, List.filter_cons, List.filter_nil]

/-- With no ticket in a route queue there is no head to attend to. -/
theorem attendAll_idle (h : ∀ m, s.routeQueue m = []) : s.attendAll = s :=
  State.forLanes_keeps (P := fun u => u = s) s rfl (fun _ m hu => by rw [hu, attendLane_empty _ _ (h m)])

theorem ticketAt?_lone (hb : s.tt.belt = [t]) : s.ticketAt? t.slot = some t :=
  State.ticketAt?_of_mem (slotsDistinct_singleton hb) (by rw [hb]; exact List.mem_singleton_self t)

theorem placeAfter_lone {k : Slot} (hb : s.tt.belt = [t]) (hk : t.slot = k) : s.placeAfter k = t.placeChars := by
  unfold State.placeAfter
  rw [← hk, ticketAt?_lone hb]

theorem modTicket_lone {k : Slot} (hb : s.tt.belt = [t]) (hk : t.slot = k) (f : Ticket → Ticket) :
    s.modTicket k f = { s with tt := { s.tt with belt := [f t] } } := by
  unfold State.modTicket
  rw [hb, List.map_cons, if_pos hk, List.map_nil]

theorem arm_lone (hb : s.tt.belt = [t]) (l : Lane) : s.arm l t = { s with
    channels := tableMod s.channels l (fun ch => { ch with armed := some {
      slot := t.slot, lead := s.lead l, planned := t.nominal.getD 0 - toCount (s.lead l), lateLimit := none } })
    tt := { s.tt with belt := [{ t with
      state := .armed, fireCount := some (t.nominal.getD 0 - toCount (s.lead l)) }] } } := by
  unfold State.arm
  exact modTicket_lone (s := s.modChannel l _) hb rfl _

/-- What does not wait at a lane is alone and still. -/
theorem settled_lone {v : Ticket} (hb : s.tt.belt = [v]) (hq : v.waiting = false) (k : Slot) :
    (s.crowd k []).attendAll = s := by
  rw [crowd_lone hb, attendAll_idle]
  intro m
  rw [routeQueue_lone hb, if_neg]
  intro h
  obtain ⟨-, e⟩ := Bool.and_eq_true_iff.mp h
  exact absurd (hq.symm.trans e) (by decide)

theorem releaseOf_free (h : t.commitment = none) : s.releaseOf t = s := by
  unfold State.releaseOf
  rw [h]

/-- A ticket RUNNING_OFF alone is given its target lane and armed there (R81, R83, R117). -/
theorem applyRedirect_arms (hb : s.tt.belt = [t]) (ht : t.state = .runningOff) (hl : t.laneDest = none)
    (he : s.eligible t (t.cls.getD 0) l = true) (ha : (s.channel l).armed = none) :
    s.applyRedirect t (.lane l) = { s with
      lanes := tableMod s.lanes l (fun r => { r with committed := r.committed + 1 })
      channels := tableMod s.channels l (fun ch => { ch with armed := some {
        slot := t.slot, lead := s.lead l, planned := s.nominalAt t (t.cls.getD 0) l - toCount (s.lead l)
        lateLimit := none } })
      tt := { s.tt with belt := [{ redirectedTo s l t with
        state := .armed, fireCount := some (s.nominalAt t (t.cls.getD 0) l - toCount (s.lead l)) }] } } := by
  have hd := slotsDistinct_singleton hb
  have hm : t ∈ s.tt.belt := by rw [hb]; exact List.mem_singleton_self t
  have free : t.commitment = none := by unfold Ticket.commitment; rw [ht]
  have reach : s.reachable t (t.cls.getD 0) l = true := by
    unfold State.eligible at he
    exact (Bool.and_eq_true_iff.mp he).2
  have placed : placedAt s t l = { s with
      lanes := tableMod s.lanes l (fun r => { r with committed := r.committed + 1 })
      tt := { s.tt with belt := [redirectedTo s l t] } } := by
    unfold placedAt
    rw [releaseOf_free free, State.disarmOf_of_noLane s t hl, modTicket_lone hb rfl]
  have lead := (stands_placedAt hd hm l).lead l
  have belt : (placedAt s t l).tt.belt = [redirectedTo s l t] := by rw [placed]
  have queue : (placedAt s t l).routeQueue l = [redirectedTo s l t] := by
    rw [routeQueue_lone belt, if_pos (queuedAt_iff.mpr ⟨rfl, .inl rfl⟩)]
  have others : ∀ {u : State} {v : Ticket}, u.tt.belt = [v] → v.dest = some (.lane l) → ∀ m, m ≠ l →
      u.attendLane m = u := by
    intro u v hu hv m hml
    apply attendLane_empty
    rw [routeQueue_lone hu, if_neg]
    intro hq
    have dest := (queuedAt_iff.mp hq).1
    rw [laneDest_iff.mpr hv] at dest
    exact hml (Option.some.inj dest).symm
  have attended : (placedAt s t l).attendLane l = (placedAt s t l).arm l (redirectedTo s l t) := by
    refine attendLane_arms _ l queue ?_ ?_
    · rw [placed]
      exact ha
    · rw [lead, (stands_placedAt hd hm l).steady.bcu]
      exact not_reached_of_reachable reach
  have armed := arm_lone belt l
  rw [applyRedirect_lane hd hm, crowd_lone belt, State.attendAll, State.forLanes_one _ l, attended, armed, lead, placed]
  · rfl
  · exact others belt rfl
  · rw [attended, armed]
    exact others rfl rfl

/-- A ticket bound for a lane alone is taken off it, its end window ahead (R82, R84, R118, R144). -/
theorem applyRedirect_leaves {ls : Vector LaneRecord 12} {cs : Vector Channel 12} (hb : s.tt.belt = [t])
    (hl : t.laneDest = some l) (hr : isReached s.bcu.count (endBoundsOf s t).2 = false)
    (hls : (s.releaseOf t).lanes = ls) (hcs : (s.disarmOf t).channels = cs) :
    s.applyRedirect t .runOff = { s with
      lanes := ls
      channels := cs
      tt := { s.tt with
        belt := [{ redirectedOff t with endBounds := some (endBoundsOf s t) }]
        runOffReasons := tableMod s.tt.runOffReasons 6 (fun n => min (n + 1) 65535) } } := by
  subst hls hcs
  have hd := slotsDistinct_singleton hb
  have hm : t ∈ s.tt.belt := by rw [hb]; exact List.mem_singleton_self t
  have stored : ((takenOff s t).countRunOff .redirected).storeBounds t.slot = { s with
      lanes := (s.releaseOf t).lanes
      channels := (s.disarmOf t).channels
      tt := { s.tt with
        belt := [{ redirectedOff t with endBounds := some (endBoundsOf s t) }]
        runOffReasons := tableMod s.tt.runOffReasons 6 (fun n => min (n + 1) 65535) } } := by
    unfold takenOff State.storeBounds
    rw [modTicket_lone hb rfl]
    exact modTicket_lone (t := redirectedOff t) rfl rfl _
  rw [applyRedirect_off hd hm hl]
  unfold State.enterRunningOff
  dsimp only
  rw [stored, if_neg]
  · exact settled_lone rfl rfl _
  · exact Bool.eq_false_iff.mp (endReached_eq_false (ticketAt?_lone
      (t := { redirectedOff t with endBounds := some (endBoundsOf s t) }) rfl) rfl hr)

/-- A ticket RUNNING_OFF alone keeps its end window. -/
theorem applyRedirect_keeps (hb : s.tt.belt = [t]) (ht : t.state = .runningOff) (hl : t.laneDest = none) :
    s.applyRedirect t .runOff = { s with tt := { s.tt with belt := [{ t with
      reason := some .redirected, hops := 0, joined := false, marks := {}, fireCount := none }] } } := by
  have hd := slotsDistinct_singleton hb
  have hm : t ∈ s.tt.belt := by rw [hb]; exact List.mem_singleton_self t
  rw [applyRedirect_stays hd hm hl, modTicket_lone hb rfl]
  refine settled_lone rfl ?_ _
  unfold Ticket.waiting
  rw [ht]
  rfl

/-! ### The command taken -/

section Taken

variable {slot gen lane : Byte} (h : Named s slot gen t)

include h

/-- Taken to a lane, whatever else is on the belt: the ticket's record and the reply. -/
theorem redirect_toLane {p : State} (hn : (Dest.lane l).number = lane.toNat)
    (he : s.targetEligible t (.lane l) = true) (hs : s.redirectSplits t (.lane l) = false)
    (hp : s.frameDone.applyRedirect t (.lane l) = p) :
    ∃ v ∈ p.tt.belt, v.slot = t.slot ∧ RedirectedTo s l t v ∧ p.placeAfter t.slot = [v.state.code, lane] := by
  have stands := stands_redirectedTo (s := s.frameDone) h.slots h.live ((targetEligible_frameDone _).trans he) hs
  rw [hp] at stands
  obtain ⟨v, hv, hk⟩ := stands.present trivial
  have record := stands.record v hv hk
  have dest : v.dest = some (.lane l) := congrArg Ticket.dest record.record
  have found := State.ticketAt?_of_mem (stands.distinct h.slots) hv
  refine ⟨v, hv, hk, ⟨record.waiting, record.record⟩, ?_⟩
  unfold State.placeAfter
  rw [← hk, found]
  dsimp only
  rw [Ticket.placeChars, dest, Option.map_some, code_of_number hn]
  rfl

/-- Taken to run-off, whatever else is on the belt: the reply tells RUNNING_OFF at 0 even where the ticket has ended. -/
theorem redirect_toRunOff {p : State} (hst : t.state = .runningOff ↔ t.dest = some .runOff) (hd : t.dest ≠ none)
    (hp : s.frameDone.applyRedirect t .runOff = p) :
    p.placeAfter t.slot = [6, 0] ∧ ∀ v ∈ p.tt.belt, v.slot = t.slot → RedirectedOff v := by
  have off : t.laneDest = none → t.state = .runningOff ∧ t.dest = some .runOff := by
    intro hl
    have dest : t.dest = some .runOff := by
      unfold Ticket.laneDest at hl
      split at hl
      · cases hl
      · assumption
      · contradiction
    exact ⟨hst.mpr dest, dest⟩
  have stands := stands_redirectedOff (s := s.frameDone) h.slots h.live off
  rw [hp] at stands
  refine ⟨?_, stands.record⟩
  unfold State.placeAfter
  split
  · rename_i v hv
    obtain ⟨hm, hk⟩ := State.ticketAt?_some hv
    have record := stands.record v hm hk
    rw [Ticket.placeChars, record.state, record.dest]
    rfl
  · rfl

variable (hb : s.tt.belt = [t])

include hb

theorem redirect_arms (hn : (Dest.lane l).number = lane.toNat) (ht : t.state = .runningOff)
    (hd : t.dest = some .runOff) (he : s.eligible t (t.cls.getD 0) l = true) (ha : (s.channel l).armed = none) :
    exec (.redirect slot gen lane) s = .next (answered { s with
      lanes := tableMod s.lanes l (fun r => { r with committed := r.committed + 1 })
      channels := tableMod s.channels l (fun ch => { ch with armed := some {
        slot := t.slot, lead := s.lead l, planned := s.nominalAt t (t.cls.getD 0) l - toCount (s.lead l)
        lateLimit := none } })
      tt := { s.tt with belt := [{ redirectedTo s l t with
        state := .armed, fireCount := some (s.nominalAt t (t.cls.getD 0) l - toCount (s.lead l)) }] } }
      .ok [2, lane]) := by
  have off : t.laneDest = none := by unfold Ticket.laneDest; rw [hd]
  have eligible : s.targetEligible t (.lane l) = true := by
    unfold State.targetEligible
    rw [releaseOf_free (by unfold Ticket.commitment; rw [ht])]
    exact he
  refine redirect_answered h hn (redirectable_of (.inr (.inl ht))) eligible (redirectSplits_lone hb _)
    (applyRedirect_arms (s := s.frameDone) hb ht off he ha) ((placeAfter_lone rfl (by rfl)).trans ?_)
  rw [Ticket.placeChars, ← code_of_number hn]
  rfl

theorem redirect_leaves {a : Armed} (hn : Dest.runOff.number = lane.toNat) (ha : ArmedAlone s l a t)
    (hr : isReached s.bcu.count (endBoundsOf s t).2 = false) :
    exec (.redirect slot gen lane) s = .next (answered { s with
      lanes := tableMod s.lanes l (fun r => { r with committed := r.committed - 1 })
      channels := tableMod s.channels l (fun ch => { ch with armed := none })
      tt := { s.tt with
        belt := [{ redirectedOff t with endBounds := some (endBoundsOf s t) }]
        runOffReasons := tableMod s.tt.runOffReasons 6 (fun n => min (n + 1) 65535) } } .ok [6, 0]) := by
  obtain ⟨hl, hw⟩ := queuedAt_iff.mp ha.mem.2
  have undeferred : Redirectable s t := by
    refine .inr (.inr ⟨ha.state, fun m b hdest hb _ => ?_⟩)
    rw [laneDest_iff.mpr hdest] at hl
    cases hl
    rw [ha.channel] at hb
    exact Option.some.inj hb ▸ ha.notDeferred
  refine redirect_answered h hn (redirectable_of undeferred) rfl (redirectSplits_lone hb _)
    (applyRedirect_leaves (s := s.frameDone) hb hl hr
      (lanes_releaseOf_some ((commitment_of_waiting hw).trans hl))
      (congrArg State.channels (disarmOf_armed (s := s.frameDone) hl ha.channel ha.slot)))
    ((placeAfter_lone rfl (by rfl)).trans ?_)
  rfl

theorem redirect_keeps (hn : Dest.runOff.number = lane.toNat) (ht : t.state = .runningOff)
    (hd : t.dest = some .runOff) : exec (.redirect slot gen lane) s = .next (answered { s with tt := { s.tt with
      belt := [{ t with reason := some .redirected, hops := 0, joined := false, marks := {}, fireCount := none }] } }
      .ok [6, 0]) := by
  have off : t.laneDest = none := by unfold Ticket.laneDest; rw [hd]
  refine redirect_answered h hn (redirectable_of (.inr (.inl ht))) rfl (redirectSplits_lone hb _)
    (applyRedirect_keeps (s := s.frameDone) hb ht off) ((placeAfter_lone rfl (by rfl)).trans ?_)
  rw [Ticket.placeChars, ht, hd]
  rfl

end Taken

end Sys2Proof.Machine

open Sys2Proof.Machine Sys2Proof.Safety

/-- Settles O53: each test refuses what it names; past them the ticket stands as it was placed through the crowding of
its neighbours and the attending to the heads, and alone on the belt nothing else happens. -/
theorem redirectMovesTicket : Obligations.RedirectMovesTicket := by
  intro s slot gen lane hs
  refine ⟨redirect_notInMode hs, redirect_badParam hs, redirect_stale hs,
    fun t d hm hd ht hslot hgen hn => ?_, fun t hm hb hslot hgen => ?_⟩
  · have h : Named s slot gen t := ⟨hs, hm, hd, ht, hslot, hgen⟩
    refine ⟨fun hst => ?_, fun l a limit ha => ?_, fun hr => ?_⟩
    · refine redirect_state h hn ?_
      unfold State.redirectable
      obtain e | e | e | e := hst <;> rw [e]
    · obtain ⟨hl, hr⟩ := redirectable_deferred ha
      have refused := redirect_state h hn hr
      rwa [Ticket.placeChars, laneDest_iff.mp hl] at refused
    · have hr := redirectable_of hr
      refine ⟨redirect_lane h hn hr, redirect_crowded h hn hr, ?_, fun he hsp => ?_⟩
      · rintro l m x rfl hb hx hdest hml hc
        exact redirectSplits_of_tooClose hb hx hdest hml hc
      · obtain ⟨p, hp⟩ : ∃ p, s.frameDone.applyRedirect t d = p := ⟨_, rfl⟩
        have steady := Steady.applyRedirect s.frameDone t d
        rw [hp] at steady
        refine ⟨_, redirect_taken h hn hr he hsp hp, steady.cat, steady.geo, steady.bcu, steady.rli, steady.em,
          steady.carrier, ?_, ?_⟩
        · rintro l rfl
          obtain ⟨v, hv, hk, ⟨waiting, record⟩, place⟩ := redirect_toLane h hn he hsp hp
          exact ⟨v, hv, hk, waiting, congrArg Ticket.dest record, congrArg Ticket.reason record,
            congrArg Ticket.hops record, congrArg Ticket.marks record, congrArg Ticket.nominal record,
            congrArg Ticket.span record, congrArg Ticket.endBounds record, by rw [place]⟩
        · rintro rfl hoff hsome
          obtain ⟨place, record⟩ := redirect_toRunOff h hoff hsome hp
          refine ⟨by rw [place], fun v hv hk => ?_⟩
          obtain ⟨state, dest, reason, hops, marks, fireCount⟩ := record v hv hk
          exact ⟨state, dest, reason, hops, marks, fireCount⟩
  · have h : Named s slot gen t :=
      ⟨hs, hm, slotsDistinct_singleton hb, by rw [hb]; exact List.mem_singleton_self t, hslot, hgen⟩
    refine ⟨?_, ?_, ?_⟩
    · rintro l planned hl hst hdest he ha rfl
      exact redirect_arms h hb hl hst hdest he ha
    · rintro l a rfl ha hr
      exact redirect_leaves h hb rfl ha hr
    · rintro rfl hst hdest
      exact redirect_keeps h hb rfl hst hdest
end
section
/-! What a resolution leaves of the reads (R57, R76): whatever the walk, the crowding rule and the attending to the heads do
then, the streak stands and no ticket becomes pending. -/

namespace Sys2Proof.Machine

/-- What has become of `r` once resolved tickets are diverted, split or retired: the streak stands, the ticket under the eye
is the same or none, and no ticket has become pending. -/
structure Onward (r u : State) : Prop where
  streak : u.ind.noReadStreak = r.ind.noReadStreak
  underEye : u.ind.underEye = r.ind.underEye ∨ u.ind.underEye = none
  pending : ∀ v ∈ u.tt.belt, v.state = .pendingRead → ∃ x ∈ r.tt.belt, x.slot = v.slot ∧ x.state = .pendingRead

namespace Onward

variable {r u : State}

theorem refl (s : State) : Onward s s := ⟨rfl, .inl rfl, fun v hv hp => ⟨v, hv, rfl, hp⟩⟩

/-! ### Single updates -/

/-- The Induction Unit and the belt list as they were. -/
theorem same (h : Onward r u) {w : State} (hi : w.ind = u.ind := by rfl) (hb : w.tt.belt = u.tt.belt := by rfl) :
    Onward r w := ⟨hi ▸ h.streak, hi ▸ h.underEye, hb ▸ h.pending⟩

/-- A record changed so that its ticket does not become pending. -/
theorem modTicket (h : Onward r u) (k : Slot) (f : Ticket → Ticket)
    (hs : ∀ t, (f t).slot = t.slot := by intro _; rfl)
    (hp : ∀ t, (f t).state = .pendingRead → t.state = .pendingRead := by exact fun _ => id) :
    Onward r (u.modTicket k f) where
  streak := h.streak
  underEye := h.underEye
  pending v hv hv' := by
    obtain ⟨x, hx, rfl⟩ := List.mem_map.mp hv
    split at hv'
    · rename_i e
      obtain ⟨y, hy, hslot, hstate⟩ := h.pending x hx (hp x hv')
      exact ⟨y, hy, by rw [if_pos e, hs, hslot], hstate⟩
    · rename_i e
      rw [if_neg e]
      exact h.pending x hx hv'

/-- A record given a state that is not PENDING_READ. -/
theorem place (h : Onward r u) (k : Slot) (f : Ticket → Ticket) (hs : ∀ t, (f t).slot = t.slot := by intro _; rfl)
    (hn : ∀ t, (f t).state ≠ .pendingRead := by intro _; exact nofun) : Onward r (u.modTicket k f) :=
  h.modTicket k f hs (fun t ht => absurd ht (hn t))

theorem modChannel (h : Onward r u) (l : Lane) (f : Channel → Channel) : Onward r (u.modChannel l f) := h.same

theorem modDrive (h : Onward r u) (l : Lane) (f : Drive → Drive) : Onward r (u.modDrive l f) := h.same

theorem forLanes (h : Onward r u) {f : State → Lane → State} (hf : ∀ w l, Onward r w → Onward r (f w l)) :
    Onward r (u.forLanes f) := State.forLanes_keeps u h hf

/-! ### Tickets -/

theorem releaseOf (h : Onward r u) (t : Ticket) : Onward r (u.releaseOf t) :=
  h.same (State.releaseOf_ind u t) (by rw [State.releaseOf_tt])

theorem countRunOff (h : Onward r u) (c : Reason) : Onward r (u.countRunOff c) := by
  unfold State.countRunOff; split
  · exact h.same
  · exact h

theorem disarm (h : Onward r u) (l : Lane) : Onward r (u.disarm l) := by
  unfold State.disarm; split
  · exact h
  · refine (h.modChannel l _).modTicket _ _ (fun _ => rfl) (fun t ht => ?_)
    dsimp only at ht
    split at ht
    · cases ht
    · exact ht

theorem disarmOf (h : Onward r u) (t : Ticket) : Onward r (u.disarmOf t) := by
  unfold State.disarmOf; split
  · exact ite_keeps (h.disarm _) h
  · exact h

theorem remove (h : Onward r u) (t : Ticket) (o : TicketOutcome) : Onward r (u.remove t o) := by
  rw [remove_eq]
  refine ⟨?_, ?_, fun v hv => h.pending v (List.mem_of_mem_filter hv)⟩
  · dsimp only; split
    · exact h.streak
    · exact h.streak
  · dsimp only; split
    · exact .inr rfl
    · exact h.underEye

theorem drainCheck (h : Onward r u) : Onward r u.drainCheck := by
  refine ite_keeps ?_ h
  obtain ⟨d, c, he⟩ := enterSetup_eq u
  rw [he]
  exact h.same

theorem retire (h : Onward r u) (k : Slot) (o : TicketOutcome) : Onward r (u.retire k o) := by
  unfold State.retire; split
  · exact h
  · exact (h.remove _ o).drainCheck

theorem enterRunningOff (h : Onward r u) (k : Slot) : Onward r (u.enterRunningOff k) := by
  have bounded : Onward r (u.storeBounds k) := h.modTicket k _
  exact ite_keeps (bounded.retire k _) bounded

theorem sendToRunOff (h : Onward r u) (k : Slot) (c : Reason) : Onward r (u.sendToRunOff k c) :=
  ((h.place k _).countRunOff c).enterRunningOff k

/-! ### Diverts -/

theorem arm (h : Onward r u) (l : Lane) (t : Ticket) : Onward r (u.arm l t) :=
  (h.modChannel l _).place _ _

theorem takeFire (h : Onward r u) (l : Lane) (t : Ticket) : Onward r (u.takeFire l t) :=
  (h.modChannel l _).place _ _

theorem extendStroke (h : Onward r u) (l : Lane) (t : Ticket) : Onward r (u.extendStroke l t) := by
  unfold State.extendStroke; split
  · exact (h.takeFire l t).modChannel _ _
  · exact ((h.takeFire l t).modChannel _ _).modDrive _ _

theorem fire (h : Onward r u) (l : Lane) (late : Bool) : Onward r (u.fire l late) := by
  obtain he | ⟨t, w, -, hw, hc⟩ := fire_cases u l late
  · rw [he]; exact h
  have marked : Onward r w := by
    rw [hw]
    exact ite_keeps (h.modTicket _ _) h
  obtain ⟨-, he⟩ | ⟨-, he⟩ | ⟨-, ⟨-, he⟩ | ⟨-, he⟩ | ⟨-, he⟩⟩ := hc <;> rw [he]
  · exact marked
  · exact ((marked.modChannel _ _).releaseOf t).sendToRunOff _ _
  · exact ((marked.takeFire l t).modChannel _ _).modDrive _ _
  · exact marked.extendStroke l t
  · exact (marked.modTicket _ _).modChannel _ _

theorem attendAll (h : Onward r u) : Onward r u.attendAll :=
  h.forLanes (fun w l hw => attend_keeps (P := Onward r) (fun _ k => k.disarm l) (fun _ t k _ _ => k.arm l t)
    (fun _ k => k.fire l true) _ w hw)

/-! ### The crowding rule -/

theorem writeJoined (h : Onward r u) (k : Slot) (b : Bool) : Onward r (u.writeJoined k b) := by
  refine h.modTicket _ _ (fun t => ?_) (fun t ht => ?_)
  · split <;> rfl
  · split at ht <;> exact ht

theorem split (h : Onward r u) (k : Slot) : Onward r (u.split k) := by
  unfold State.split; split
  · exact h
  · exact ite_keeps (((h.disarmOf _).releaseOf _).sendToRunOff _ _) h

theorem judgePair (h : Onward r u) (passing : List Slot) (x y : Slot) : Onward r (u.judgePair passing x y) := by
  unfold State.judgePair; split
  · exact ite_keeps h (ite_keeps (ite_keeps (h.writeJoined y true) (((h.writeJoined y false).split x).split y))
      (h.writeJoined y false))
  all_goals exact h

theorem crowd (h : Onward r u) (k : Slot) (passing : List Slot) : Onward r (u.crowd k passing) := by
  obtain ⟨w, hw, he⟩ := crowd_cases u k passing
  have before : Onward r w := by
    obtain rfl | ⟨a, -, rfl⟩ := hw
    · exact h
    · exact h.judgePair _ _ _
  obtain he | ⟨b, -, he⟩ := he <;> rw [he]
  · exact before
  · exact before.judgePair _ _ _

/-! ### The walk's end -/

theorem writeWalk (h : Onward r u) (k : Slot) (c : WareClass) (w : WalkEnd) : Onward r (u.writeWalk k c w) := by
  unfold State.writeWalk; split
  · exact (show Onward r (u.commit _) from h.same).place _ _
  · exact (h.modTicket _ _).sendToRunOff _ _

end Onward

/-! ### The resolved ticket -/

variable {s : State} {k : Slot} {t : Ticket}

/-- A record given a state that is not PENDING_READ is pending no more. -/
theorem not_pending_modTicket (s : State) (k : Slot) (f : Ticket → Ticket)
    (h : ∀ t, (f t).state ≠ .pendingRead := by intro _; exact nofun) :
    ∀ v ∈ (s.modTicket k f).tt.belt, v.slot = k → v.state ≠ .pendingRead := by
  intro v hv hk
  obtain ⟨x, -, rfl⟩ := List.mem_map.mp hv
  split
  · exact h x
  · rename_i e
    rw [if_neg e] at hk
    contradiction

theorem Onward.not_pending {r u : State} (h : Onward r u)
    (hr : ∀ v ∈ r.tt.belt, v.slot = k → v.state ≠ .pendingRead) :
    ∀ v ∈ u.tt.belt, v.slot = k → v.state ≠ .pendingRead := by
  intro v hv hk hp
  obtain ⟨x, hx, hslot, hstate⟩ := h.pending v hv hp
  exact hr x hx (hslot.trans hk) hstate

/-- The end of a walk takes the ticket out of the pending set (R81, R82). -/
theorem not_pending_writeWalk (s : State) (k : Slot) (c : WareClass) (w : WalkEnd) :
    ∀ v ∈ (s.writeWalk k c w).tt.belt, v.slot = k → v.state ≠ .pendingRead := by
  unfold State.writeWalk; split
  · exact not_pending_modTicket _ k _
  · exact (((Onward.refl _).countRunOff _).enterRunningOff k).not_pending
      (not_pending_modTicket _ k _)

/-- What the resolution writes into the record before the walk (R76, R77). -/
def State.noted (s : State) (k : Slot) (c : Start) : State :=
  s.modTicket k (fun t => { t with tag := none, windowEnd := none, outlet := c.outlet, cls := some c.cls })

/-- A ticket of the pending set is resolved: the streak, the record, the walk from the start case, the crowding rule and
the heads (R76). -/
theorem resolve_pending (ht : s.ticketAt? k = some t) (hp : t.state = .pendingRead) {cause : Cause} {u : State} {c : Start}
    (hu : s.streak cause = u) (hc : u.startCase t cause = c) : s.resolve k cause =
      (((u.noted k c).writeWalk k c.cls ((u.noted k c).walk t c.cls c.lane c.reason)).crowd k []).attendAll := by
  subst hu hc
  have pending : t.isPending = true := by unfold Ticket.isPending; rw [hp]; rfl
  unfold State.resolve
  rw [ht]
  dsimp only
  rw [if_pos pending]
  rfl

/-- The streak of good reads and no-reads leaves the rest of the Induction Unit and the belt list. -/
theorem streak_ind (s : State) (c : Cause) : (s.streak c).tt = s.tt ∧ (s.streak c).ind = { s.ind with
    noReadStreak := if c.goodRead = true then 0 else min (s.ind.noReadStreak + 1) 255 } := by
  unfold State.streak; split
  · exact ⟨rfl, rfl⟩
  · exact ite_keeps (P := fun u => u.tt = s.tt ∧ u.ind = _) ⟨rfl, rfl⟩ ⟨rfl, rfl⟩

/-- A resolution, whatever it comes to: the streak is as its cause has it, a free eye stays free, and the ticket is
pending no more (R57, R76). -/
structure ResolvedBy (s : State) (k : Slot) (c : Cause) (u : State) : Prop where
  steady : Steady s u
  streak : u.ind.noReadStreak = if c.goodRead = true then 0 else min (s.ind.noReadStreak + 1) 255
  eyeFree : s.ind.underEye = none → u.ind.underEye = none
  notPending : ∀ v ∈ u.tt.belt, v.slot = k → v.state ≠ .pendingRead

theorem resolved_onward (s : State) (k : Slot) (c : Start) (w : WalkEnd) :
    Onward s (((s.noted k c).writeWalk k c.cls w).crowd k []).attendAll := by
  have noted : Onward s (s.noted k c) := (Onward.refl s).modTicket k _
  exact ((noted.writeWalk k c.cls w).crowd k []).attendAll

theorem resolve_resolvedBy (ht : s.ticketAt? k = some t) (hp : t.state = .pendingRead) (c : Cause) :
    ResolvedBy s k c (s.resolve k c) := by
  obtain ⟨-, hi⟩ := streak_ind s c
  refine ⟨Steady.resolve s k c, ?_, fun he => ?_, ?_⟩ <;> rw [resolve_pending ht hp rfl rfl]
  · exact (resolved_onward _ k _ _).streak.trans (by rw [hi])
  · obtain e | e := (resolved_onward _ k _ _).underEye
    · rw [e, hi]; exact he
    · exact e
  · exact ((Onward.refl _).crowd k []).attendAll.not_pending (not_pending_writeWalk _ k _ _)

end Sys2Proof.Machine
end
section
/-! A ticket resolved unread, shown whole where it is alone on the belt or follows an ARMED one too closely (R57, R77, R82,
R85 to R88). -/

namespace Sys2Proof.Machine

open Sys2Proof.Safety

variable {s : State} {x y t : Ticket} {l m : Lane} {k : Slot} {a : Armed} {c : Cause}

/-! ### The start case without a good read (R57, R77) -/

/-- Below a streak of 16 no flag is set (R57). -/
theorem streak_low (hc : c.goodRead = false) (hn : s.ind.noReadStreak < 15) :
    s.streak c = { s with ind := { s.ind with noReadStreak := s.ind.noReadStreak + 1 } } := by
  have count : satInc 255 s.ind.noReadStreak = s.ind.noReadStreak + 1 := by unfold satInc; omega
  unfold State.streak
  rw [if_neg (by simp [hc]), count]
  exact if_neg (by omega)

/-- Without a good read no read is usable (R67). -/
theorem usableRead_unread (hc : c.goodRead = false) : s.usableRead t c = none := by
  unfold State.usableRead
  rw [hc]
  split <;> rfl

/-- Neither overlength nor draining, a ticket without a good read starts at the residue lane (case 3 of R77). -/
theorem startCase_unread (hc : c.goodRead = false) (ho : t.overlength = false) (hm : s.mode ≠ .drain) :
    s.startCase t c = ⟨none, s.cat.defaultClass, s.cat.residueLane, .unread⟩ := by
  unfold State.startCase
  rw [if_neg (by simp [ho]), if_neg hm, usableRead_unread hc]

theorem mode_ne_drain (h : s.mode = .run ∨ InHold s) : s.mode ≠ .drain := by
  obtain h | h | h := h <;> rw [h] <;> nofun

theorem walk_runOff (s : State) (t : Ticket) (c : WareClass) (r : Reason) : s.walk t c .runOff r = ⟨none, 0, r⟩ := rfl

/-- A start lane that is eligible is the lane taken (R80). -/
theorem walk_eligible_start {c : WareClass} (r : Reason) (h : s.eligible t c l = true) :
    s.walk t c (.lane l) r = ⟨some l, 0, r⟩ := if_pos h

/-- The record of the ticket as it is walked from the residue lane. -/
def notedUnread (s : State) (t : Ticket) : Ticket :=
  { t with tag := none, windowEnd := none, outlet := none, cls := some s.cat.defaultClass }

/-- The state with a no-read more in the streak, these lane records and this belt list. -/
def State.afterNoRead (s : State) (ls : Vector LaneRecord 12) (b : List Ticket) : State :=
  { s with
    ind := { s.ind with noReadStreak := s.ind.noReadStreak + 1 }
    lanes := ls
    tt := { s.tt with belt := b } }

/-- The state in which a ticket resolved unread is walked: the streak has risen, and its record is noted. -/
def State.walkedUnread (s : State) (k : Slot) : State :=
  (s.afterNoRead s.lanes s.tt.belt).noted k ⟨none, s.cat.defaultClass, s.cat.residueLane, .unread⟩

/-- A pending ticket without a good read, not overlength, outside DRAIN, at a low streak. -/
structure Unread (s : State) (t : Ticket) (c : Cause) : Prop where
  cause : c.goodRead = false
  found : s.ticketAt? t.slot = some t
  pending : t.state = .pendingRead
  short : t.overlength = false
  mode : s.mode = .run ∨ InHold s
  low : s.ind.noReadStreak < 15

theorem resolve_unread (h : Unread s t c) : s.resolve t.slot c =
    (((s.walkedUnread t.slot).writeWalk t.slot s.cat.defaultClass
      ((s.walkedUnread t.slot).walk t s.cat.defaultClass s.cat.residueLane .unread)).crowd t.slot []).attendAll :=
  resolve_pending h.found h.pending (streak_low h.cause h.low) (startCase_unread h.cause h.short (mode_ne_drain h.mode))

/-- With no ticket waiting at a lane there is no head to attend to. -/
theorem attendAll_unwaiting (h : ∀ v ∈ s.tt.belt, v.waiting = false) : s.attendAll = s := by
  refine attendAll_idle (fun n => List.filter_eq_nil_iff.mpr (fun v hv hq => ?_))
  have waits : v.waiting = true := (Bool.and_eq_true_iff.mp hq).2
  rw [h v hv] at waits
  cases waits

theorem belt_countRunOff (s : State) (r : Reason) : (s.countRunOff r).tt.belt = s.tt.belt := by
  unfold State.countRunOff; split <;> rfl

/-! ### Alone on the belt -/

/-- A ticket alone on the belt is sent to run-off with its end window ahead (R82, R144). -/
theorem sendToRunOff_lone (hb : s.tt.belt = [t]) (hk : t.slot = k) (r : Reason)
    (hr : isReached s.bcu.count (endBoundsOf s t).2 = false) : s.sendToRunOff k r =
      { s.countRunOff r with tt := { (s.countRunOff r).tt with belt := [ranOff s r t] } } := by
  subst hk
  rw [sendToRunOff_ahead (slotsDistinct_singleton hb) (by simp [hb]) r hr,
    modTicket_lone ((belt_countRunOff s r).trans hb) rfl]

/-- A ticket resolved unread alone on the belt runs off UNREAD, which no counter counts (R31, R82). -/
theorem resolve_unread_lone (h : Unread s t c) (hb : s.tt.belt = [t]) (hres : s.cat.residueLane = .runOff)
    (hr : isReached s.bcu.count (endBoundsOf s t).2 = false) : s.resolve t.slot c = { s with
      ind := { s.ind with noReadStreak := s.ind.noReadStreak + 1 }
      tt := { s.tt with belt := [unreadOff s t] } } := by
  have noted : s.walkedUnread t.slot = s.afterNoRead s.lanes [notedUnread s t] :=
    modTicket_lone (s := s.afterNoRead s.lanes s.tt.belt) hb rfl _
  have written : (s.walkedUnread t.slot).writeWalk t.slot s.cat.defaultClass ⟨none, 0, .unread⟩ =
      s.afterNoRead s.lanes [unreadOff s t] := by
    rw [noted]
    unfold State.writeWalk
    dsimp only
    rw [modTicket_lone (s := s.afterNoRead s.lanes [notedUnread s t]) (k := t.slot) rfl rfl]
    exact sendToRunOff_lone (t := { notedUnread s t with hops := 0 }) rfl rfl .unread hr
  rw [resolve_unread h, hres, walk_runOff, written]
  exact settled_lone rfl rfl _

/-! ### Two tickets on the belt -/

theorem slotsDistinct_pair (hb : s.tt.belt = [x, y]) (hne : x.slot ≠ y.slot) : SlotsDistinct s := by
  unfold SlotsDistinct
  rw [hb]
  simpa using hne

theorem modTicket_first (hb : s.tt.belt = [x, y]) (hne : x.slot ≠ y.slot) (f : Ticket → Ticket) :
    s.modTicket x.slot f = { s with tt := { s.tt with belt := [f x, y] } } := by
  unfold State.modTicket
  simp [hb, hne.symm]

theorem modTicket_second (hb : s.tt.belt = [x, y]) (hne : x.slot ≠ k) (hk : y.slot = k) (f : Ticket → Ticket) :
    s.modTicket k f = { s with tt := { s.tt with belt := [x, f y] } } := by
  unfold State.modTicket
  simp [hb, hne, hk]

theorem sendToRunOff_first (hb : s.tt.belt = [x, y]) (hne : x.slot ≠ y.slot) (r : Reason)
    (hr : isReached s.bcu.count (endBoundsOf s x).2 = false) : s.sendToRunOff x.slot r =
      { s.countRunOff r with tt := { (s.countRunOff r).tt with belt := [ranOff s r x, y] } } := by
  rw [sendToRunOff_ahead (slotsDistinct_pair hb hne) (by simp [hb]) r hr,
    modTicket_first ((belt_countRunOff s r).trans hb) hne]

theorem sendToRunOff_second (hb : s.tt.belt = [x, y]) (hne : x.slot ≠ k) (hk : y.slot = k) (r : Reason)
    (hr : isReached s.bcu.count (endBoundsOf s y).2 = false) : s.sendToRunOff k r =
      { s.countRunOff r with tt := { (s.countRunOff r).tt with belt := [x, ranOff s r y] } } := by
  subst hk
  rw [sendToRunOff_ahead (slotsDistinct_pair hb hne) (by simp [hb]) r hr,
    modTicket_second ((belt_countRunOff s r).trans hb) hne rfl]

theorem ticketAt?_first (hb : s.tt.belt = [x, y]) : s.ticketAt? x.slot = some x := by
  unfold State.ticketAt?
  simp [hb]

theorem ticketAt?_second (hb : s.tt.belt = [x, y]) (hne : x.slot ≠ y.slot) : s.ticketAt? y.slot = some y := by
  unfold State.ticketAt?
  simp [hb, hne]

/-! ### The crowding rule on two tickets (R85 to R88) -/

/-- The rule on the later of two tickets, neither pending and too close, joins the pair at one lane and else splits it. -/
theorem crowd_pair (hb : s.tt.belt = [x, y]) (hne : x.slot ≠ y.slot) (hx : x.isPending = false)
    (hy : y.isPending = false) (hc : s.crowded x y = true) : s.crowd y.slot [] =
      if sameLane x y = true then s.writeJoined y.slot true
      else ((s.writeJoined y.slot false).split x.slot).split y.slot := by
  have judged : s.crowd y.slot [] = s.judgePair [] x.slot y.slot := by
    unfold State.crowd
    rw [hb]
    simp [beforeIn, afterIn, hne]
  rw [judged, State.judgePair, ticketAt?_first hb, ticketAt?_second hb hne]
  simp [passedOver, hx, hy, hc]

/-- A ticket too close behind one bound for a lane is crowded, wherever it goes itself (R86). -/
theorem crowded_of_tooClose (hl : x.laneDest = some m) (h : TooClose s x y) : s.crowded x y = true := by
  obtain ⟨c, hcls, hgap⟩ := h
  have close : gapBetween x y < s.guardGap x := by
    unfold gapBetween State.guardGap toCount
    rw [hcls]
    dsimp only
    omega
  simp [State.crowded, close, hl]

theorem split_unsplittable (hb : s.tt.belt = [x, y]) (hne : x.slot ≠ y.slot) (hy : y.splittable = false) :
    s.split y.slot = s := by
  unfold State.split
  rw [ticketAt?_second hb hne]
  simp [hy]

/-- The earlier ticket, ARMED, is split: disarmed, its commitment released, and sent to run-off (R88, R118). -/
theorem split_armed (hb : s.tt.belt = [x, y]) (hne : x.slot ≠ y.slot) (hx : x.state = .armed)
    (hl : x.laneDest = some m) (ha : (s.channel m).armed = some a) (e : a.slot = x.slot)
    (hr : isReached s.bcu.count (endBoundsOf s x).2 = false) : s.split x.slot = { s with
      lanes := tableMod s.lanes m (fun r => { r with committed := r.committed - 1 })
      channels := tableMod s.channels m (fun ch => { ch with armed := none })
      tt := { s.tt with
        belt := [{ ranOff s .crowded x with fireCount := none }, y]
        runOffReasons := tableMod s.tt.runOffReasons 4 (fun n => min (n + 1) 65535) } } := by
  have splits : x.splittable = true := by simp [Ticket.splittable, Ticket.waiting, hl, hx]
  have disarmed : s.disarmOf x = { s with
      channels := tableMod s.channels m (fun ch => { ch with armed := none })
      tt := { s.tt with belt := [{ x with fireCount := none, state := .routed }, y] } } := by
    rw [disarmOf_armed hl ha e, modTicket_first (s := s.modChannel m _) hb hne, if_pos hx]
    rfl
  have released : (s.disarmOf x).releaseOf x = { s with
      lanes := tableMod s.lanes m (fun r => { r with committed := r.committed - 1 })
      channels := tableMod s.channels m (fun ch => { ch with armed := none })
      tt := { s.tt with belt := [{ x with fireCount := none, state := .routed }, y] } } := by
    rw [releaseOf_eq, lanes_releaseOf_some ((commitment_of_waiting (.inr hx)).trans hl), disarmed]
  unfold State.split
  rw [ticketAt?_first hb]
  dsimp only
  rw [if_pos splits, released]
  exact sendToRunOff_first (x := { x with fireCount := none, state := .routed }) rfl hne .crowded hr

/-- The later ticket, ROUTED and armed nowhere, is split: its commitment is released, and it is sent to run-off (R88). -/
theorem split_routed (hb : s.tt.belt = [x, y]) (hne : x.slot ≠ y.slot) (hy : y.state = .routed)
    (hl : y.laneDest = some l) (ha : (s.channel l).armed = none)
    (hr : isReached s.bcu.count (endBoundsOf s y).2 = false) : s.split y.slot = { s with
      lanes := tableMod s.lanes l (fun r => { r with committed := r.committed - 1 })
      tt := { s.tt with
        belt := [x, ranOff s .crowded y]
        runOffReasons := tableMod s.tt.runOffReasons 4 (fun n => min (n + 1) 65535) } } := by
  have splits : y.splittable = true := by simp [Ticket.splittable, Ticket.waiting, hl, hy]
  have unarmed : s.disarmOf y = s := by simp [State.disarmOf, State.armsSlot, hl, ha]
  have released : (s.disarmOf y).releaseOf y = { s with
      lanes := tableMod s.lanes l (fun r => { r with committed := r.committed - 1 }) } := by
    rw [unarmed, releaseOf_eq, lanes_releaseOf_some ((commitment_of_waiting (.inl hy)).trans hl)]
  unfold State.split
  rw [ticketAt?_second hb hne]
  dsimp only
  rw [if_pos splits, released]
  exact sendToRunOff_second (s := { s with
    lanes := tableMod s.lanes l (fun r => { r with committed := r.committed - 1 }) }) hb hne rfl .crowded hr

/-- Changes of two entries of a table meet in either order. -/
theorem tableMod_comm {α : Type} {n : Nat} (v : Vector α n) {i j : Fin n} (h : i ≠ j) (f g : α → α) :
    tableMod (tableMod v i f) j g = tableMod (tableMod v j g) i f := by
  show (tableMod v i f).set j (g ((tableMod v i f).get j)) = (tableMod v j g).set i (f ((tableMod v j g).get i))
  rw [tableMod_get_of_ne _ _ _ _ h.symm, tableMod_get_of_ne _ _ _ _ h]
  exact Vector.set_comm _ _ (fun e => h (Fin.ext e))

/-! ### Behind an ARMED ticket -/

/-- A ticket follows, too closely, one that alone waits ARMED at its lane (R86, R114). -/
structure Behind (s : State) (m : Lane) (a : Armed) (x t : Ticket) : Prop where
  belt : s.tt.belt = [x, t]
  distinct : x.slot ≠ t.slot
  dest : x.dest = some (.lane m)
  armed : ArmedAlone s m a x
  close : TooClose s x t

theorem Behind.laneDest (h : Behind s m a x t) : x.laneDest = some m := laneDest_iff.mpr h.dest

theorem walkedUnread_pair (h : Behind s m a x t) :
    s.walkedUnread t.slot = s.afterNoRead s.lanes [x, notedUnread s t] :=
  modTicket_second (s := s.afterNoRead s.lanes s.tt.belt) h.belt h.distinct rfl _

/-- The record of a ticket resolved unread and given the residue lane (R81). -/
def unreadTo (s : State) (l : Lane) (t : Ticket) : Ticket :=
  { t with
    state := .routed, tag := none, windowEnd := none, outlet := none, cls := some s.cat.defaultClass
    dest := some (.lane l), reason := some .unread, hops := 0, joined := false, endBounds := none
    nominal := some (s.nominalAt t s.cat.defaultClass l), span := some (spanOf s t s.cat.defaultClass) }

theorem writeWalk_unreadTo (h : Behind s m a x t) (l : Lane) :
    (s.walkedUnread t.slot).writeWalk t.slot s.cat.defaultClass ⟨some l, 0, .unread⟩ =
      s.afterNoRead (tableMod s.lanes l (fun r => { r with committed := r.committed + 1 })) [x, unreadTo s l t] := by
  rw [walkedUnread_pair h]
  unfold State.writeWalk State.giveLane
  dsimp only
  exact modTicket_second (s := (s.afterNoRead s.lanes [x, notedUnread s t]).commit l) rfl h.distinct rfl _

theorem writeWalk_unreadOff (h : Behind s m a x t) (hr : isReached s.bcu.count (endBoundsOf s t).2 = false) :
    (s.walkedUnread t.slot).writeWalk t.slot s.cat.defaultClass ⟨none, 0, .unread⟩ =
      s.afterNoRead s.lanes [x, unreadOff s t] := by
  rw [walkedUnread_pair h]
  unfold State.writeWalk
  dsimp only
  rw [modTicket_second (s := s.afterNoRead s.lanes [x, notedUnread s t]) rfl h.distinct rfl]
  exact sendToRunOff_second (x := x) (y := { notedUnread s t with hops := 0 }) rfl h.distinct rfl .unread hr

/-- The pair still stands too close, whatever the walk has made of the later ticket. -/
theorem crowd_behind (h : Behind s m a x t) (ls : Vector LaneRecord 12) (y : Ticket) (hy : y.slot = t.slot)
    (hp : y.isPending = false) (hi : y.induction = t.induction) : (s.afterNoRead ls [x, y]).crowd t.slot [] =
      if sameLane x y = true then (s.afterNoRead ls [x, y]).writeJoined t.slot true
      else (((s.afterNoRead ls [x, y]).writeJoined t.slot false).split x.slot).split t.slot := by
  have armed : x.isPending = false := by unfold Ticket.isPending; rw [h.armed.state]; rfl
  have close : TooClose (s.afterNoRead ls [x, y]) x y := by
    obtain ⟨c, hcls, hgap⟩ := h.close
    exact ⟨c, hcls, by rw [hi]; exact hgap⟩
  rw [← hy]
  exact crowd_pair rfl (hy ▸ h.distinct) armed hp (crowded_of_tooClose h.laneDest close)

/-- The heads of a joined pair: the earlier ticket stays armed, and no other lane has one (R24). -/
theorem attendAll_joined {u : State} (hb : u.tt.belt = [x, y]) (hx : x.queuedAt m = true) (hy : y.laneDest = some m)
    (ha : (u.channel m).armed = some a) (e : a.slot = x.slot) : u.attendAll = u := by
  refine State.forLanes_id u (fun n => ?_)
  by_cases hn : n = m
  · subst hn
    refine attendLane_armed u n (rest := [y].filter (fun t => t.queuedAt n)) ?_ ha e
    unfold State.routeQueue
    rw [hb, List.filter_cons_of_pos (p := fun t : Ticket => t.queuedAt n) hx]
  · refine attendLane_empty u n (List.filter_eq_nil_iff.mpr (fun v hv hq => hn ?_))
    have dest : v.laneDest = some m := by
      rw [hb] at hv
      obtain rfl | rfl := List.mem_pair.mp hv
      · exact (queuedAt_iff.mp hx).1
      · exact hy
    rw [(queuedAt_iff.mp hq).1] at dest
    exact Option.some.inj dest

/-- At the lane of the ticket before it the pair is joined, and the head stays armed (R87). -/
theorem resolve_unread_joined (h : Unread s t c) (hb : Behind s m a x t) (hres : s.cat.residueLane = .lane m)
    (he : s.eligible t s.cat.defaultClass m = true) : s.resolve t.slot c =
      s.afterNoRead (tableMod s.lanes m (fun r => { r with committed := r.committed + 1 }))
        [x, { unreadTo s m t with joined := true }] := by
  have walk : (s.walkedUnread t.slot).walk t s.cat.defaultClass (.lane m) .unread = ⟨some m, 0, .unread⟩ :=
    walk_eligible_start _ he
  have together : sameLane x (unreadTo s m t) = true := by
    unfold sameLane
    rw [hb.laneDest, show (unreadTo s m t).laneDest = some m from rfl]
    simp
  rw [resolve_unread h, hres, walk, writeWalk_unreadTo hb, crowd_behind hb _ (unreadTo s m t) rfl rfl rfl,
    if_pos together, State.writeJoined, modTicket_second (x := x) (y := unreadTo s m t) rfl hb.distinct rfl]
  exact attendAll_joined (x := x) rfl hb.armed.mem.2 rfl hb.armed.channel hb.armed.slot

/-- The state after a no-read in which the earlier ticket has been split from the later (R88). -/
def State.afterSplit (s : State) (m : Lane) (ls : Vector LaneRecord 12) (x y : Ticket) : State :=
  { s with
    ind := { s.ind with noReadStreak := s.ind.noReadStreak + 1 }
    lanes := tableMod ls m (fun r => { r with committed := r.committed - 1 })
    channels := tableMod s.channels m (fun ch => { ch with armed := none })
    tt := { s.tt with
      belt := [{ ranOff s .crowded x with fireCount := none }, y]
      runOffReasons := tableMod s.tt.runOffReasons 4 (fun n => min (n + 1) 65535) } }

theorem split_behind (h : Behind s m a x t) (hx : isReached s.bcu.count (endBoundsOf s x).2 = false)
    (ls : Vector LaneRecord 12) (y : Ticket) (hy : y.slot = t.slot) :
    (s.afterNoRead ls [x, y]).split x.slot = s.afterSplit m ls x y :=
  split_armed (s := s.afterNoRead ls [x, y]) rfl (hy ▸ h.distinct) h.armed.state h.laneDest h.armed.channel
    h.armed.slot hx

/-- At run-off it stands, and the ticket before it is split (R88). -/
theorem resolve_unread_off (h : Unread s t c) (hb : Behind s m a x t) (hres : s.cat.residueLane = .runOff)
    (ht : isReached s.bcu.count (endBoundsOf s t).2 = false) (hx : isReached s.bcu.count (endBoundsOf s x).2 = false) :
    s.resolve t.slot c = { s with
      ind := { s.ind with noReadStreak := s.ind.noReadStreak + 1 }
      lanes := tableMod s.lanes m (fun r => { r with committed := r.committed - 1 })
      channels := tableMod s.channels m (fun ch => { ch with armed := none })
      tt := { s.tt with
        belt := [{ ranOff s .crowded x with fireCount := none }, unreadOff s t]
        runOffReasons := tableMod s.tt.runOffReasons 4 (fun n => min (n + 1) 65535) } } := by
  have apart : ¬ sameLane x (unreadOff s t) = true := by
    unfold sameLane
    rw [hb.laneDest, show (unreadOff s t).laneDest = none from rfl]
    simp
  have unmarked : (s.afterNoRead s.lanes [x, unreadOff s t]).writeJoined t.slot false =
      s.afterNoRead s.lanes [x, unreadOff s t] :=
    modTicket_second (s := s.afterNoRead s.lanes [x, unreadOff s t]) rfl hb.distinct rfl _
  rw [resolve_unread h, hres, walk_runOff, writeWalk_unreadOff hb ht, crowd_behind hb _ (unreadOff s t) rfl rfl rfl,
    if_neg apart, unmarked, split_behind hb hx _ (unreadOff s t) rfl,
    show (s.afterSplit m s.lanes x (unreadOff s t)).split t.slot = _ from
      split_unsplittable (y := unreadOff s t) rfl hb.distinct rfl]
  refine attendAll_unwaiting (fun v hv => ?_)
  obtain rfl | rfl := List.mem_pair.mp hv <;> rfl

/-- At another lane both are split (R88). -/
theorem resolve_unread_split (h : Unread s t c) (hb : Behind s m a x t) (hl : l ≠ m)
    (hres : s.cat.residueLane = .lane l) (he : s.eligible t s.cat.defaultClass l = true)
    (ha : (s.channel l).armed = none) (ht : isReached s.bcu.count (endBoundsOf s t).2 = false)
    (hx : isReached s.bcu.count (endBoundsOf s x).2 = false) : s.resolve t.slot c = { s with
      ind := { s.ind with noReadStreak := s.ind.noReadStreak + 1 }
      lanes := tableMod s.lanes m (fun r => { r with committed := r.committed - 1 })
      channels := tableMod s.channels m (fun ch => { ch with armed := none })
      tt := { s.tt with
        belt := [{ ranOff s .crowded x with fireCount := none }, { unreadOff s t with reason := some .crowded }]
        runOffReasons := tableMod s.tt.runOffReasons 4 (fun n => min (n + 2) 65535) } } := by
  have walk : (s.walkedUnread t.slot).walk t s.cat.defaultClass (.lane l) .unread = ⟨some l, 0, .unread⟩ :=
    walk_eligible_start _ he
  have apart : ¬ sameLane x (unreadTo s l t) = true := by
    unfold sameLane
    rw [hb.laneDest, show (unreadTo s l t).laneDest = some l from rfl]
    simpa using hl.symm
  generalize hls : tableMod s.lanes l (fun r => { r with committed := r.committed + 1 }) = ls
  have unmarked : (s.afterNoRead ls [x, unreadTo s l t]).writeJoined t.slot false =
      s.afterNoRead ls [x, unreadTo s l t] :=
    modTicket_second (s := s.afterNoRead ls [x, unreadTo s l t]) rfl hb.distinct rfl _
  have free : ((s.afterSplit m ls x (unreadTo s l t)).channel l).armed = none := by
    rw [show (s.afterSplit m ls x (unreadTo s l t)).channel l = (tableMod s.channels m _).get l from rfl,
      tableMod_get_of_ne _ _ _ _ hl]
    exact ha
  have restored : tableMod (tableMod ls m (fun r => { r with committed := r.committed - 1 })) l
      (fun r => { r with committed := r.committed - 1 }) =
        tableMod s.lanes m (fun r => { r with committed := r.committed - 1 }) := by
    rw [← hls, tableMod_comm _ hl, tableMod_tableMod]
    exact tableMod_id _ _ _ rfl
  have counted : tableMod (tableMod s.tt.runOffReasons 4 (fun n => min (n + 1) 65535)) 4 (fun n => min (n + 1) 65535) =
      tableMod s.tt.runOffReasons 4 (fun n => min (n + 2) 65535) := by
    rw [tableMod_tableMod]
    exact tableMod_congr _ _ _ _ (by omega)
  rw [resolve_unread h, hres, walk, writeWalk_unreadTo hb, hls, crowd_behind hb _ (unreadTo s l t) rfl rfl rfl,
    if_neg apart, unmarked, split_behind hb hx _ (unreadTo s l t) rfl,
    show (s.afterSplit m ls x (unreadTo s l t)).split t.slot = _ from
      split_routed (y := unreadTo s l t) rfl hb.distinct rfl rfl free ht]
  refine (attendAll_unwaiting (fun v hv => ?_)).trans ?_
  · obtain rfl | rfl := List.mem_pair.mp hv <;> rfl
  · dsimp only [State.afterSplit]
    rw [restored, counted]
    rfl

end Sys2Proof.Machine
end
section
/-! The induction eye (R41 to R47): what its edges and the hold limit come to, by the mode, the Ticket Table and the ticket
under the eye. -/

namespace Sys2Proof.Machine

open Sys2Proof.Safety

variable {s : State} {t : Ticket} {k : Slot}

theorem exec_inductionLeadingEdge (hr : Running s) : exec .inductionLeadingEdge s = .next s.inductionLeads :=
  State.event_running hr _

theorem exec_inductionTrailingEdge (hr : Running s) : exec .inductionTrailingEdge s = .next s.inductionTrails :=
  State.event_running hr _

/-- The state with the eye seen so (R41). -/
def State.withEye (s : State) (e : Eye) : State := { s with ind := { s.ind with eye := e } }

/-! ### The trailing edge and the hold limit (R45 to R47) -/

theorem endUnderEye_none (h : s.ind.underEye = none) (n : Nat) : s.endUnderEye n = s := by
  unfold State.endUnderEye; rw [h]

theorem ticketAt?_modTicket_self {f : Ticket → Ticket} (ht : s.ticketAt? k = some t) (hs : ∀ t, (f t).slot = t.slot) :
    (s.modTicket k f).ticketAt? k = some (f t) := by
  rw [State.ticketAt?_modTicket s k k f hs, ht, Option.map_some, if_pos (State.ticketAt?_some ht).2]

/-- The state in which no ticket is under the eye any more. -/
def State.eyeFreed (s : State) : State := { s with ind := { s.ind with underEye := none, blockedLength := 0 } }

/-- The ticket under the eye ends there: resolved with its read held, else with its read window opened (R47). -/
theorem endUnderEye_eq (hu : s.ind.underEye = some k) (ht : s.ticketAt? k = some t) (n : Nat) : s.endUnderEye n =
    if t.readHeld = true then (s.eyeFreed.modTicket k (fun u => { u with length := some n })).resolve k .trailingEdge
    else if isReached s.now (s.now + toCount s.geo.readWindow) = true then
      (s.eyeFreed.modTicket k (fun u => { u with
        length := some n, windowEnd := some (s.now + toCount s.geo.readWindow) })).resolve k .windowExpiry
    else s.eyeFreed.modTicket k (fun u => { u with
      length := some n, windowEnd := some (s.now + toCount s.geo.readWindow) }) := by
  have found : (s.eyeFreed.modTicket k (fun u => { u with length := some n })).ticketAt? k =
      some { t with length := some n } := ticketAt?_modTicket_self (s := s.eyeFreed) ht (by intro _; rfl)
  have fused := State.modTicket_modTicket s.eyeFreed k (fun u => { u with length := some n })
    (fun u => { u with windowEnd := some (s.now + toCount s.geo.readWindow) }) (by intro _; rfl)
  unfold State.eyeFreed at found fused ⊢
  unfold State.endUnderEye
  rw [hu]
  dsimp only
  rw [found, ← fused]
  rfl

/-- A read window of 1 to 1,023 has its end ahead. -/
theorem endUnderEye_opens (hu : s.ind.underEye = some k) (ht : s.ticketAt? k = some t) (hh : t.readHeld = false)
    (hpos : 0 < s.geo.readWindow) (hmax : s.geo.readWindow ≤ 1023) (n : Nat) : s.endUnderEye n =
      s.eyeFreed.modTicket k (fun u => { u with
        length := some n, windowEnd := some (s.bcu.count + BitVec.ofNat 16 s.geo.readWindow) }) := by
  have ahead := isReached_ahead s.now s.geo.readWindow hpos (by omega)
  rw [endUnderEye_eq hu ht, hh, if_neg Bool.false_ne_true, ahead]
  rfl

theorem inductionTrails_setup (hm : s.mode = .setup) : s.inductionTrails = s.withEye .clear := by
  have hm' : (s.withEye .clear).mode = .setup := hm
  unfold State.withEye at hm' ⊢
  unfold State.inductionTrails
  cases he : s.ind.eye with
  | clear => simp only [← he]
  | blocked => dsimp only; rw [hm']

/-- Outside SETUP the ticket under the eye ends at the trailing edge (R47). -/
theorem inductionTrails_blocked (hm : s.mode ≠ .setup) (he : s.ind.eye = .blocked) :
    s.inductionTrails = (s.withEye .clear).endUnderEye (max 1 s.ind.blockedLength) := by
  have hm' : (s.withEye .clear).mode = s.mode := rfl
  unfold State.withEye at hm' ⊢
  unfold State.inductionTrails
  rw [he]
  dsimp only
  rw [hm']
  cases h : s.mode with
  | setup => exact absurd h hm
  | run => rfl
  | drain => rfl
  | hold _ => rfl

/-- The ticket under the eye is at its hold limit (R46). -/
theorem holdLimitDue_of (hu : s.ind.underEye = some k) (ht : s.ticketAt? k = some t)
    (hr : isReached s.bcu.count (t.induction + 30000) = true) : s.holdLimitDue = true := by
  unfold State.holdLimitDue
  rw [hu]
  dsimp only
  rw [ht]
  exact hr

/-! ### Overlength (R46) -/

theorem overlengthDue_eq (hu : s.ind.underEye = some k) (ht : s.ticketAt? k = some t) :
    s.overlengthDue = if 1023 ≤ s.ind.blockedLength ∧ t.overlength = false then some k else none := by
  unfold State.overlengthDue
  rw [hu]
  dsimp only
  rw [ht]

/-! ### Slots and tags (R17, R23) -/

/-- The lowest slot that no ticket of the belt has is the one taken (R17). -/
theorem freeSlot?_some (hk : ∀ t ∈ s.tt.belt, t.slot ≠ k) (hlow : ∀ j : Slot, j < k → ∃ t ∈ s.tt.belt, t.slot = j) :
    s.freeSlot? = some k := by
  refine List.find?_eq_some_iff_getElem.mpr ⟨by simpa using hk, k.val, by simp, by simp, fun j hj => ?_⟩
  obtain ⟨t, ht, e⟩ := hlow ⟨j, hj.trans k.isLt⟩ hj
  simpa using ⟨t, ht, e⟩

theorem freeSlot?_none (h : ∀ k : Slot, ∃ t ∈ s.tt.belt, t.slot = k) : s.freeSlot? = none := by
  refine List.find?_eq_none.mpr (fun k _ => ?_)
  simpa using h k

/-- Slot 0 is free, or slot 1 behind a ticket in slot 0. -/
theorem freeSlot?_lone (hb : s.tt.belt = [t]) : s.freeSlot? = some (if t.slot = 0 then 1 else 0) := by
  apply freeSlot?_some
  · rw [hb]
    simp only [List.mem_singleton, forall_eq]
    split
    · rename_i e; rw [e]; decide
    · assumption
  · intro j hj
    split at hj
    · rename_i e
      have zero : j = 0 := Fin.ext (Nat.lt_one_iff.mp hj)
      exact ⟨t, by simp [hb], e.trans zero.symm⟩
    · exact absurd hj (Nat.not_lt_zero _)

theorem pendingWithTag?_none {tag : Tag} (h : ∀ t ∈ s.tt.belt, t.state = .pendingRead → t.tag ≠ some tag) :
    s.pendingWithTag? tag = none := by
  unfold State.pendingWithTag? State.pendingSet Ticket.isPending
  rw [List.find?_eq_none]
  intro t ht
  obtain ⟨hm, hp⟩ := List.mem_filter.mp ht
  simpa using h t hm (by simpa using hp)

/-- The ticket found by its tag is live and pending, and has the tag (R23). -/
theorem pendingWithTag?_some {tag : Tag} (h : s.pendingWithTag? tag = some t) :
    t ∈ s.tt.belt ∧ t.state = .pendingRead ∧ t.tag = some tag := by
  unfold State.pendingWithTag? State.pendingSet Ticket.isPending at h
  obtain ⟨hm, hp⟩ := List.mem_filter.mp (List.mem_of_find?_eq_some h)
  exact ⟨hm, by simpa using hp, by simpa using List.find?_some h⟩

theorem pendingWithTag?_lone {tag : Tag} (hb : s.tt.belt = [t]) (hp : t.state = .pendingRead) (ht : t.tag = some tag) :
    s.pendingWithTag? tag = some t := by
  unfold State.pendingWithTag? State.pendingSet Ticket.isPending
  simp [hb, hp, ht]

/-! ### The leading edge (R42 to R44) -/

theorem inductionLeads_setup (hm : s.mode = .setup) : s.inductionLeads = s.withEye .blocked := by
  have hm' : (s.withEye .blocked).mode = .setup := hm
  unfold State.withEye at hm' ⊢
  unfold State.inductionLeads
  cases he : s.ind.eye with
  | blocked => simp only [← he]
  | clear => dsimp only; rw [hm']

/-- Outside SETUP a piece comes under the eye at the leading edge (R42). -/
theorem inductionLeads_clear (hm : s.mode ≠ .setup) (he : s.ind.eye = .clear) :
    s.inductionLeads = (s.withEye .blocked).induct := by
  have hm' : (s.withEye .blocked).mode = s.mode := rfl
  unfold State.withEye at hm' ⊢
  unfold State.inductionLeads
  rw [he]
  dsimp only
  rw [hm']
  cases h : s.mode with
  | setup => exact absurd h hm
  | run => rfl
  | drain => rfl
  | hold _ => rfl

/-- The state in which the next tag has been taken. -/
def State.tagTaken (s : State) : State := { s with ind := { s.ind with nextTag := s.ind.nextTag + 1 } }

/-- A pending ticket that still holds a tag is resolved unread when the tag is used again (R44). -/
def State.reuse (s : State) (tag : Tag) : State :=
  match s.pendingWithTag? tag with
  | none => s
  | some t => s.resolve t.slot .tagReuse

/-- With a slot free the next tag is taken, a holder of it resolved, and the ticket opened in the lowest free slot. -/
theorem induct_opens {u : State} (hf : s.freeSlot? ≠ none) (hu : s.tagTaken.reuse s.ind.nextTag = u)
    (hm : u.mode ≠ .setup) (hk : u.freeSlot? = some k) : s.induct = u.openTicket k s.ind.nextTag := by
  obtain ⟨j, hj⟩ := Option.ne_none_iff_exists'.mp hf
  have last : s.induct = match u.mode, u.freeSlot? with
      | .setup, _ => u
      | _, none => u
      | _, some slot => u.openTicket slot s.ind.nextTag := by
    subst hu
    unfold State.induct
    rw [hj]
    rfl
  rw [last, hk]
  cases h : u.mode with
  | setup => exact absurd h hm
  | run => rfl
  | drain => rfl
  | hold _ => rfl

/-- `BitVec.or_zero` for the zero as the flag masks write it. -/
theorem or_noFlag (w : BitVec 10) : w ||| 0 = w := BitVec.or_zero

/-- The allocation of a slot: the record at the belt's tail, and TABLE_HIGH from 112 live tickets on (R16, R17). -/
theorem allocate_eq (s : State) (k : Slot) (tag : Tag) : s.allocate k tag = { s with
    tt := { s.tt with
      generations := s.tt.generations.set k.val (s.tt.generations.get k + 1) k.isLt
      belt := s.tt.belt ++ [newTicket k (s.tt.generations.get k + 1) tag s.bcu.count] }
    sli := { s.sli with flags := s.sli.flags ||| (if 112 ≤ s.tt.belt.length + 1 then 8 else 0) } } := by
  have live : ∀ x : Ticket, (s.tt.belt ++ [x]).length = s.tt.belt.length + 1 := fun x => by simp
  unfold State.allocate State.liveCount
  dsimp only
  rw [live]
  split
  · rfl
  · rw [or_noFlag]
    rfl

/-- A tag offered to the trigger FIFO: queued, or a reader error when four wait (R48, R52). -/
theorem offerTrigger_eq (s : State) (tag : Tag) : s.offerTrigger tag = { s with
    rli := if s.rli.fifo.length < 4 then { s.rli with fifo := s.rli.fifo ++ [tag] }
      else { s.rli with errors := min (s.rli.errors + 1) 65535 }
    sli := { s.sli with flags := s.sli.flags ||| (if s.rli.fifo.length < 4 then 0 else 16) } } := by
  unfold State.offerTrigger
  by_cases h : s.rli.fifo.length < 4
  · simp only [if_pos h, or_noFlag]
  · simp only [if_neg h]
    rfl

/-- The opening of a ticket, all told (R42 steps 4 to 6). -/
theorem openTicket_eq (s : State) (k : Slot) (tag : Tag) : s.openTicket k tag = { s with
    tt := { s.tt with
      generations := s.tt.generations.set k.val (s.tt.generations.get k + 1) k.isLt
      belt := s.tt.belt ++ [newTicket k (s.tt.generations.get k + 1) tag s.bcu.count] }
    ind := { s.ind with underEye := some k, blockedLength := 0 }
    rli := if s.rli.fifo.length < 4 then { s.rli with fifo := s.rli.fifo ++ [tag] }
      else { s.rli with errors := min (s.rli.errors + 1) 65535 }
    sli := { s.sli with
      flags := s.sli.flags ||| (if 112 ≤ s.tt.belt.length + 1 then 8 else 0)
        ||| (if s.rli.fifo.length < 4 then 0 else 16) } } := by
  unfold State.openTicket
  rw [allocate_eq, offerTrigger_eq]

/-- With few tickets live TABLE_HIGH is not set. -/
theorem openTicket_few (h : s.tt.belt.length < 111) (k : Slot) (tag : Tag) : s.openTicket k tag = { s with
    tt := { s.tt with
      generations := s.tt.generations.set k.val (s.tt.generations.get k + 1) k.isLt
      belt := s.tt.belt ++ [newTicket k (s.tt.generations.get k + 1) tag s.bcu.count] }
    ind := { s.ind with underEye := some k, blockedLength := 0 }
    rli := if s.rli.fifo.length < 4 then { s.rli with fifo := s.rli.fifo ++ [tag] }
      else { s.rli with errors := min (s.rli.errors + 1) 65535 }
    sli := { s.sli with flags := s.sli.flags ||| (if s.rli.fifo.length < 4 then 0 else 16) } } := by
  rw [openTicket_eq, if_neg (show ¬ 112 ≤ s.tt.belt.length + 1 by omega), or_noFlag]

theorem reuse_none {tag : Tag} (h : s.pendingWithTag? tag = none) : s.reuse tag = s := by
  unfold State.reuse; rw [h]

theorem reuse_some {tag : Tag} (h : s.pendingWithTag? tag = some t) : s.reuse tag = s.resolve t.slot .tagReuse := by
  unfold State.reuse; rw [h]

/-- A piece that finds no free slot (R18, R42). -/
theorem induct_refuses (h : s.freeSlot? = none) : s.induct = s.refusePiece := by
  unfold State.induct; rw [h]

end Sys2Proof.Machine

open Sys2Proof.Machine Sys2Proof.Safety

/-- Settles O12: the next tag free, held by a ticket alone on the belt, no slot free, and SETUP. -/
theorem leadingEdgeOpensTicket : Obligations.LeadingEdgeOpensTicket := by
  intro s
  refine ⟨fun k ha he hk hlow htag => ?_, fun k t hr hm he hb hp ht ho hres hw hn hk => ?_, fun ha he hfull => ?_,
    fun hr hm => ?_⟩
  · obtain ⟨hr, hm⟩ := ha
    have free : (s.withEye .blocked).freeSlot? = some k := freeSlot?_some hk hlow
    have unheld : (s.withEye .blocked).tagTaken.pendingWithTag? s.ind.nextTag = none := pendingWithTag?_none htag
    rw [exec_inductionLeadingEdge hr, inductionLeads_clear hm he,
      induct_opens (ne_of_eq_of_ne free nofun) (reuse_none unheld) hm free, openTicket_eq]
    rfl
  · have hm' : s.mode ≠ .setup := by obtain h | h | h := hm <;> rw [h] <;> nofun
    have free : (s.withEye .blocked).freeSlot? = some k := hk ▸ freeSlot?_lone hb
    have unread : Unread (s.withEye .blocked).tagTaken t .tagReuse := ⟨rfl, ticketAt?_lone hb, hp, ho, hm, hn⟩
    have resolved := (reuse_some (s := (s.withEye .blocked).tagTaken) (pendingWithTag?_lone hb hp ht)).trans
      (resolve_unread_lone unread hb hres hw)
    rw [exec_inductionLeadingEdge hr, inductionLeads_clear hm' he,
      induct_opens (ne_of_eq_of_ne free nofun) resolved hm' (hk ▸ freeSlot?_lone (t := unreadOff s t) rfl),
      openTicket_few]
    · rfl
    · exact (by decide : 1 < 111)
  · obtain ⟨hr, hm⟩ := ha
    have taken : (s.withEye .blocked).freeSlot? = none := freeSlot?_none hfull
    rw [exec_inductionLeadingEdge hr, inductionLeads_clear hm he, induct_refuses taken]
    rfl
  · rw [exec_inductionLeadingEdge hr, exec_inductionTrailingEdge hr, inductionLeads_setup hm, inductionTrails_setup hm]
    exact ⟨rfl, rfl⟩

/-- Settles O13: the ticket under the eye, if there is one, ends with its read awaited or held. -/
theorem trailingEdgeEndsTicket : Obligations.TrailingEdgeEndsTicket := by
  intro s ⟨hr, hm⟩ he
  rw [exec_inductionTrailingEdge hr, inductionTrails_blocked hm he]
  refine ⟨fun hu => ?_, fun k t hu ht _ => ⟨fun hh hpos hmax => ?_, fun hh hp => ?_⟩⟩
  · rw [endUnderEye_none (s := s.withEye .clear) hu]
    rfl
  · rw [endUnderEye_opens (s := s.withEye .clear) hu ht hh hpos hmax]
    rfl
  · have found := ticketAt?_modTicket_self (s := (s.withEye .clear).eyeFreed) (k := k)
      (f := fun u => { u with length := some (max 1 s.ind.blockedLength) }) ht (by intro _; rfl)
    have done := resolve_resolvedBy found hp .trailingEdge
    refine ⟨_, congrArg _ ((endUnderEye_eq (s := s.withEye .clear) hu ht _).trans (if_pos hh)), done.steady.eye,
      done.eyeFree rfl, done.streak, done.notPending, done.steady.cat, done.steady.geo, done.steady.rli, done.steady.em,
      done.steady.carrier⟩

/-- Settles O14: the mark is due or not, and the hold limit ends the ticket as a trailing edge does. -/
theorem overlengthAndHoldLimit : Obligations.OverlengthAndHoldLimit := by
  intro s k t hr hu ht
  have marks : exec .overlength s = .next s.markOverlength := State.event_running hr _
  have ends : exec .holdLimitReached s = .next s.reachHoldLimit := State.event_running hr _
  have due := overlengthDue_eq hu ht
  rw [marks, ends]
  refine ⟨fun ho hl => ?_, fun h => ?_, fun ho hh hreach hpos hmax => ?_⟩
  · rw [if_pos ⟨hl, ho⟩] at due
    unfold State.markOverlength
    rw [due]
  · have done : ¬ (1023 ≤ s.ind.blockedLength ∧ t.overlength = false) := by
      rintro ⟨hl, ho⟩
      obtain h | h := h
      · rw [ho] at h; cases h
      · omega
    rw [if_neg done] at due
    unfold State.markOverlength
    rw [due]
  · rw [State.reachHoldLimit, if_pos (holdLimitDue_of hu ht hreach), endUnderEye_opens hu ht hh hpos hmax]
    rfl
end
section
/-! The closing of a read window (section 3.7). -/

namespace Sys2Proof.Machine

open Safety

variable {s : State} {k : Slot} {t : Ticket} {e : Count}

theorem exec_readWindowExpiry (hr : Running s) (k : Slot) :
    exec (.readWindowExpiry k) s = .next (s.expireReadWindow k) :=
  State.event_running hr (fun s => s.expireReadWindow k)

/-- The window of a pending ticket closes at its end count (R55). -/
theorem expireReadWindow_resolves (ht : s.ticketAt? k = some t) (hp : t.state = .pendingRead)
    (he : t.windowEnd = some e) (hreach : isReached s.bcu.count e = true) : s.expireReadWindow k = s.resolve k .windowExpiry := by
  have due : t.windowDue s.now = true := by
    unfold Ticket.windowDue Ticket.isPending State.now
    rw [hp, he]
    exact hreach
  unfold State.expireReadWindow
  rw [ht]
  exact if_pos due

/-- A no-read that brings the streak to 16 sets NOREAD (R57). -/
theorem streak_raises {c : Cause} (hc : c.goodRead = false) (hn : 16 ≤ min (s.ind.noReadStreak + 1) 255) :
    (s.streak c).flagSet .noRead = true := by
  unfold State.streak
  rw [if_neg (by rw [hc]; exact nofun)]
  dsimp only
  rw [satInc, if_pos hn]
  exact flagSet_raise _ _

/-- What a resolution does after its streak is steady, so the flags that the streak sets stand (R76, R176). -/
theorem steady_streak_resolve (ht : s.ticketAt? k = some t) (hp : t.state = .pendingRead) (c : Cause) :
    Steady (s.streak c) (s.resolve k c) := by
  rw [resolve_pending ht hp rfl rfl]
  exact (((Steady.modTicket _ _ _).trans (Steady.writeWalk _ _ _ _)).trans (Steady.crowd _ _ _)).trans
    (Steady.attendAll _)

end Sys2Proof.Machine

open Sys2Proof.Machine Sys2Proof.Safety

/-- Settles O15: a window that closes is a resolution without a good read, whose outcome is known for a ticket alone and
for one that follows too closely. -/
theorem readWindowExpiryResolvesUnread : Obligations.ReadWindowExpiryResolvesUnread := by
  intro s k t e hr ht hp he hreach
  obtain ⟨-, rfl⟩ := State.ticketAt?_some ht
  rw [exec_readWindowExpiry hr, expireReadWindow_resolves ht hp he hreach]
  refine ⟨?_, fun hb ho hm hres hw hn => ?_, fun x m a hb hne hx ha hc ho hm hn => ?_⟩
  · have done := resolve_resolvedBy ht hp .windowExpiry
    have flags := steady_streak_resolve ht hp .windowExpiry
    exact ⟨_, rfl, done.streak, fun h => flags.flagSet (streak_raises rfl h), done.notPending, done.steady.eye,
      done.steady.bcu, done.steady.cat, done.steady.geo, done.steady.rli, done.steady.em, done.steady.carrier⟩
  · exact congrArg _ (resolve_unread_lone ⟨rfl, ht, hp, ho, hm, hn⟩ hb hres hw)
  · have unread : Unread s t .windowExpiry := ⟨rfl, ht, hp, ho, hm, hn⟩
    have behind : Behind s m a x t := ⟨hb, hne, hx, ha, hc⟩
    refine ⟨fun hres hl => ?_, fun hres htw hxw => ?_, fun l hlm hres hl harm htw hxw => ?_⟩
    · exact congrArg _ (resolve_unread_joined unread behind hres hl)
    · exact congrArg _ (resolve_unread_off unread behind hres htw hxw)
    · exact congrArg _ (resolve_unread_split unread behind hlm hres hl harm htw hxw)
end
section
/-! The reader line (sections 3.4 to 3.6): the triggers, the assembly of reports, and what becomes of a report. -/

namespace Sys2Proof.Machine

open Safety

variable {s : State} {t : Ticket} {v : Byte} {tag : Tag} {p f : Byte}

/-! ### Triggers and the gap -/

/-- A trigger is on the line for 312 µs (R48, R49). -/
theorem awaitTimer_triggerSent {n : Nat} (hs : s.rli.sendTimer = some n) (hn : 312 ≤ n) :
    s.awaitTimer .triggerSent = s.endTrigger := by
  refine State.awaitTimer_due ?_
  change s.rli.sendTimer.map (readerCharTime - ·) = some 0
  rw [hs]
  exact congrArg some (Nat.sub_eq_zero_of_le hn)

theorem assembling_of_ne (h : s.rli.assembly ≠ .waitHeader) : s.assembling = true := by
  unfold State.assembling
  split
  · contradiction
  all_goals rfl

/-- The gap that abandons a report is 2 ms (R51). -/
theorem awaitTimer_readerGap (ha : s.rli.assembly ≠ .waitHeader) (hg : 2000 ≤ s.rli.gapTimer) :
    s.awaitTimer .readerGap = s.abandonReport := by
  refine State.awaitTimer_due ?_
  change (if s.assembling = true then some (readerGapLimit - s.rli.gapTimer) else none) = some 0
  rw [if_pos (assembling_of_ne ha)]
  exact congrArg some (Nat.sub_eq_zero_of_le hg)

/-! ### Characters -/

theorem exec_readerCharacter (hr : Running s) (c : LineChar) :
    exec (.readerCharacter c) s = .next (s.readerReceives c) :=
  State.event_running hr (fun s => s.readerReceives c)

/-- A report opens at a marked 20h to 2Fh (Table 3-1). -/
theorem header_iff (v : Byte) : v >>> 4 = 0x2 ↔ 0x20 ≤ v.toNat ∧ v.toNat ≤ 0x2F := by
  rw [← BitVec.toNat_inj, BitVec.toNat_ushiftRight, Nat.shiftRight_eq_div_pow]
  change v.toNat / 16 = 2 ↔ _
  omega

theorem readerMarked_idle (ha : s.rli.assembly = .waitHeader) : s.readerMarked v =
    if 0x20 ≤ v.toNat ∧ v.toNat ≤ 0x2F then s.setAssembly (.waitPattern (v.truncate 4)) else s := by
  unfold State.readerMarked
  rw [ha]
  exact if_congr (header_iff v) rfl rfl

/-- A marked character ends the report under assembly, and opens another if it is a header (Table 3-2). -/
theorem readerMarked_assembling (ha : s.rli.assembly ≠ .waitHeader) : s.readerMarked v =
    if 0x20 ≤ v.toNat ∧ v.toNat ≤ 0x2F then s.abandonReport.setAssembly (.waitPattern (v.truncate 4))
    else s.abandonReport := by
  unfold State.readerMarked
  split
  · contradiction
  all_goals exact if_congr (header_iff v) rfl rfl

theorem readerData_idle (ha : s.rli.assembly = .waitHeader) : s.readerData v = s := by
  unfold State.readerData
  rw [ha]

theorem readerData_pattern (ha : s.rli.assembly = .waitPattern tag) :
    s.readerData v = s.setAssembly (.waitForm tag v) := by
  unfold State.readerData
  rw [ha]

theorem readerData_form (ha : s.rli.assembly = .waitForm tag p) :
    s.readerData v = s.setAssembly (.waitStatus tag p v) := by
  unfold State.readerData
  rw [ha]

/-- The status character completes the report (R52). -/
theorem readerData_status (ha : s.rli.assembly = .waitStatus tag p f) :
    s.readerData v = (s.setAssembly .waitHeader).report tag p f v := by
  unfold State.readerData
  rw [ha]

/-! ### Completed reports -/

/-- The upper four bits of the status are 0 (Table 3-1). -/
theorem goodStatus_iff (v : Byte) : ((v >>> 4) == 0) = true ↔ v.toNat < 16 := by
  rw [beq_iff_eq, ← BitVec.toNat_inj, BitVec.toNat_ushiftRight, Nat.shiftRight_eq_div_pow]
  change v.toNat / 16 = 0 ↔ _
  omega

/-- The lower four bits are the quality (Table 3-1). -/
theorem quality_toNat (h : v.toNat < 16) : (v.truncate 4 : BitVec 4).toNat = v.toNat := by
  rw [BitVec.truncate_eq_setWidth, BitVec.toNat_setWidth]
  exact Nat.mod_eq_of_lt h

/-- A good read: a good status with a quality at or over the threshold (R53, R67). -/
theorem goodRead_iff (v : Byte) (n : Nat) :
    (((v >>> 4) == 0) = true ∧ n ≤ (v.truncate 4 : BitVec 4).toNat) ↔ v.toNat < 16 ∧ n ≤ v.toNat := by
  rw [goodStatus_iff]
  exact and_congr_right fun h => by rw [quality_toNat h]

/-- What a report writes into the record of its ticket: the quality, and the ware code of a good status (R53). -/
def State.reported (s : State) (t : Ticket) (p f v : Byte) : State :=
  s.modTicket t.slot (fun u => { u with
    quality := some (v.truncate 4)
    ware := if v.toNat < 16 then some (p, f) else none })

/-- A report without a ticket that awaits it is a stray (R53). -/
theorem report_stray (h : ∀ t, s.pendingWithTag? tag = some t → t.readHeld = true) : s.report tag p f v =
    { s with rli := { s.rli with strays := min (s.rli.strays + 1) 65535 } } := by
  unfold State.report
  dsimp only
  split
  · rfl
  · rename_i t ht
    exact if_pos (h t ht)

/-- A report for a ticket that awaits it is written, and a good read is held under the eye and resolves past it
(R53, R54). -/
theorem report_awaited (ht : s.pendingWithTag? tag = some t) (hh : t.readHeld = false) : s.report tag p f v =
    if v.toNat < 16 ∧ s.cat.threshold ≤ v.toNat then
      if s.ind.underEye = some t.slot then (s.reported t p f v).modTicket t.slot (fun u => { u with readHeld := true })
      else (s.reported t p f v).resolve t.slot .report
    else s.reported t p f v := by
  have noted : s.modTicket t.slot (fun u => { u with
      quality := some (v.truncate 4), ware := if (v >>> 4) == 0 then some (p, f) else none }) = s.reported t p f v := by
    unfold State.reported
    simp only [goodStatus_iff]
  unfold State.report
  rw [ht]
  dsimp only
  rw [if_neg (by rw [hh]; exact nofun), noted]
  exact if_congr (goodRead_iff v s.cat.threshold) rfl rfl

/-- A good read is held while its ticket is under the eye (R54). -/
theorem report_held (ht : s.pendingWithTag? tag = some t) (hh : t.readHeld = false)
    (hv : v.toNat < 16) (hq : s.cat.threshold ≤ v.toNat) (hu : s.ind.underEye = some t.slot) : s.report tag p f v =
    s.modTicket t.slot (fun u => { u with quality := some (v.truncate 4), ware := some (p, f), readHeld := true }) := by
  rw [report_awaited ht hh, if_pos ⟨hv, hq⟩, if_pos hu, State.reported,
    State.modTicket_modTicket _ _ _ _ (by intro _; rfl)]
  simp only [if_pos hv]

/-- A good read past the eye resolves its ticket (R54, R57). -/
theorem report_resolvedBy (hd : SlotsDistinct s) (ht : s.pendingWithTag? tag = some t) (hh : t.readHeld = false)
    (hv : v.toNat < 16) (hq : s.cat.threshold ≤ v.toNat) (hu : s.ind.underEye ≠ some t.slot) :
    ResolvedBy (s.reported t p f v) t.slot .report (s.report tag p f v) := by
  obtain ⟨hmem, hp, -⟩ := pendingWithTag?_some ht
  rw [report_awaited ht hh, if_pos ⟨hv, hq⟩, if_neg hu]
  exact resolve_resolvedBy (ticketAt?_modTicket_self (State.ticketAt?_of_mem hd hmem) (by intro _; rfl)) hp .report

end Sys2Proof.Machine

open Sys2Proof.Machine Sys2Proof.Safety

/-- Settles O16: the trigger begins on an idle transmitter, and the two timers stand at their limits. -/
theorem triggersAndReaderGap : Obligations.TriggersAndReaderGap := by
  intro s hr
  have begins : exec .triggerSend s = .next s.beginTrigger := State.event_running hr _
  have ends : exec .triggerSent s = .next (s.awaitTimer .triggerSent) :=
    State.event_running hr (fun s => s.awaitTimer .triggerSent)
  have gap : exec .readerGapTimeout s = .next (s.awaitTimer .readerGap) :=
    State.event_running hr (fun s => s.awaitTimer .readerGap)
  rw [begins, ends, gap]
  refine ⟨fun hs hf => ?_, fun n hs hn => ?_, fun ha hg => ?_⟩
  · exact congrArg _ (if_pos ⟨hs, hf⟩)
  · rw [awaitTimer_triggerSent hs hn, State.endTrigger, List.drop_one]
  · rw [awaitTimer_readerGap ha hg]
    rfl

/-- Settles O17, by the character and the state of the assembly, row by row of Table 3-2. -/
theorem readerCharactersAssemble : Obligations.ReaderCharactersAssemble := by
  intro s c hr
  rw [exec_readerCharacter hr]
  unfold State.readerReceives
  refine ⟨fun hg => ?_, fun hg hm ha => ?_, fun hg hm ha => ?_, fun hg hm => ?_⟩
  · rw [hg]
    rfl
  · rw [if_pos hg, if_pos hm, readerMarked_idle ha]
    rfl
  · rw [if_pos hg, if_pos hm, readerMarked_assembling ha]
    split <;> rfl
  · have data : ¬ c.marked = true := by rw [hm]; exact nofun
    rw [if_pos hg, if_neg data]
    exact ⟨fun ha => congrArg _ (readerData_idle ha), fun tag ha => congrArg _ (readerData_pattern ha),
      fun tag p ha => congrArg _ (readerData_form ha)⟩

/-- Settles O18, by the ticket that awaits the report, its read and the eye. -/
theorem reportsMatchedAndJudged : Obligations.ReportsMatchedAndJudged := by
  intro s c tag p f hr hg hm ha
  have data : ¬ c.marked = true := by rw [hm]; exact nofun
  rw [exec_readerCharacter hr, State.readerReceives, if_pos hg, if_neg data, readerData_status ha]
  refine ⟨fun hstray => ?_, fun t ht hh => ⟨fun hv hq hu => ?_, fun hv => ?_, fun hd hv hq hu => ?_⟩⟩
  · refine congrArg _ (report_stray (s := s.setAssembly .waitHeader) fun t ht => ?_)
    obtain ⟨hmem, hp, htag⟩ := pendingWithTag?_some ht
    exact hstray t hmem hp htag
  · exact congrArg _ (report_held (s := s.setAssembly .waitHeader) ht hh hv hq hu)
  · have noRead : ¬ (c.value.toNat < 16 ∧ s.cat.threshold ≤ c.value.toNat) := by omega
    rw [report_awaited (s := s.setAssembly .waitHeader) ht hh]
    exact congrArg _ (if_neg noRead)
  · have done := report_resolvedBy (s := s.setAssembly .waitHeader) (p := p) (f := f) hd ht hh hv hq hu
    exact ⟨_, rfl, done.streak, done.notPending, done.steady.rli, done.steady.cat, done.steady.bcu⟩
end
section
/-! A good read past the trailing edge (R54, R67), for a ticket alone on the belt: the start case that the catalogue
answers (R77), and the ticket resolved to a lane and armed there, or to run-off (R80 to R83, R117). -/

namespace Sys2Proof.Machine

open Safety

variable {s : State} {t : Ticket} {l : Lane}

/-! ### The start case with a good read (R67, R77) -/

/-- A good read ends the streak (R57). -/
theorem streak_good {c : Cause} (hc : c.goodRead = true) :
    s.streak c = { s with ind := { s.ind with noReadStreak := 0 } } := if_pos hc

/-- The record of a ticket whose good read has come (R53). -/
def readAs (t : Ticket) (p f v : Byte) : Ticket := { t with quality := some (v.truncate 4), ware := some (p, f) }

/-- A good read at or over the threshold is usable (R67). -/
theorem usableRead_readAs {v : Byte} (hv : v.toNat < 16) (hq : s.cat.threshold ≤ v.toNat) (p f : Byte) :
    s.usableRead (readAs t p f v) .report = some (p, f) :=
  if_pos ⟨rfl, hq.trans_eq (quality_toNat hv).symm⟩

/-- An overlength ticket starts at run-off, with the owner of its pattern (case 1 of R77). -/
theorem startCase_overlength {c : Cause} {p f : Byte} (ho : t.overlength = true)
    (hu : s.usableRead t c = some (p, f)) : s.startCase t c =
      ⟨(s.patternOf p).owner?, s.cat.defaultClass, .runOff, .overlength⟩ := by
  unfold State.startCase
  rw [if_pos ho, hu]
  rfl

/-- In DRAIN a ticket starts at run-off (case 2 of R77). -/
theorem startCase_draining {c : Cause} (ho : t.overlength = false) (hm : s.mode = .drain) :
    s.startCase t c = ⟨none, s.cat.defaultClass, .runOff, .draining⟩ := by
  unfold State.startCase
  rw [if_neg (ne_true_of_eq_false ho), if_pos hm]

/-- Else the catalogue answers a usable read (cases 4 to 7 of R77). -/
theorem startCase_usable {c : Cause} {p f : Byte} (ho : t.overlength = false) (hm : s.mode ≠ .drain)
    (hu : s.usableRead t c = some (p, f)) : s.startCase t c = s.catalogueAnswer p f := by
  unfold State.startCase
  rw [if_neg (ne_true_of_eq_false ho), if_neg hm, hu]

/-- Table 5-1 is the start case of a usable read. -/
theorem startCase_of_startsAt {u : Ticket} {p f : Byte} {o : Option Outlet} {cls : WareClass} {start : Dest}
    {r : Reason} (h : StartsAt s t p f o cls start r) (ho : u.overlength = t.overlength)
    (hu : s.usableRead u .report = some (p, f)) : s.startCase u .report = ⟨o, cls, start, r⟩ := by
  cases h with
  | overlengthOwned o long owned =>
    rw [startCase_overlength (ho.trans long) hu, State.patternOf]
    obtain entry | entry := owned <;> rw [entry] <;> rfl
  | overlengthUnowned long entry =>
    rw [startCase_overlength (ho.trans long) hu, State.patternOf, entry]
    rfl
  | draining short mode => exact startCase_draining (ho.trans short) mode
  | unused short mode entry =>
    rw [startCase_usable (ho.trans short) mode hu, State.catalogueAnswer, State.patternOf, entry]
  | suspended o short mode entry =>
    rw [startCase_usable (ho.trans short) mode hu, State.catalogueAnswer, State.patternOf, entry]
  | unknownForm o short mode entry form =>
    rw [startCase_usable (ho.trans short) mode hu, State.catalogueAnswer, State.patternOf, entry, form]
  | routed o c short mode entry form =>
    rw [startCase_usable (ho.trans short) mode hu, State.catalogueAnswer, State.patternOf, entry, form]
    rfl

/-- The counter that a start at run-off raises: UNKNOWN and SUSPENDED have none (R31). -/
theorem countRunOff_of_startsAt {p f : Byte} {o : Option Outlet} {cls : WareClass} {start : Dest} {r : Reason}
    (h : StartsAt s t p f o cls start r) (u : State) : u.countRunOff r = { u with tt := { u.tt with
      runOffReasons :=
        if r = .overlength then tableMod u.tt.runOffReasons 0 (fun n => min (n + 1) 65535)
        else if r = .draining then tableMod u.tt.runOffReasons 1 (fun n => min (n + 1) 65535)
        else if r = .routed then tableMod u.tt.runOffReasons 2 (fun n => min (n + 1) 65535)
        else u.tt.runOffReasons } } := by
  cases h <;> rfl

/-! ### A walk's end alone on the belt (R81, R82, R117) -/

/-- A start lane that is ineligible and leads nowhere ends the walk NO_LANE (R80). -/
theorem walk_ineligible_end {c : WareClass} (r : Reason) (he : s.eligible t c l = false)
    (ho : (s.lane l).overflow = .runOff) : s.walk t c (.lane l) r = ⟨none, 0, .noLane⟩ := by
  show State.walkLane s t c r 6 l = _
  rw [State.walkLane, he, ho]
  rfl

/-- The state with this ticket alone on the belt. -/
def State.withLone (s : State) (v : Ticket) : State := { s with tt := { s.tt with belt := [v] } }

/-- The one ticket on the belt, waiting at a lane where nothing is armed with its planned fire count ahead, is armed
(R117). -/
theorem attendAll_arms_lone {lead : Nat} {planned : Count} (hb : s.tt.belt = [t]) (hq : t.queuedAt l = true)
    (ha : (s.channel l).armed = none) (hl : s.lead l = lead)
    (hp : t.nominal.getD 0 - BitVec.ofNat 16 lead = planned) (hr : isReached s.bcu.count planned = false) :
    s.attendAll = { s with
      channels := tableMod s.channels l (fun ch =>
        { ch with armed := some { slot := t.slot, lead := lead, planned := planned, lateLimit := none } })
      tt := { s.tt with belt := [{ t with state := .armed, fireCount := some planned }] } } := by
  subst hl hp
  have queue : s.routeQueue l = [t] := by rw [routeQueue_lone hb, if_pos hq]
  have others : ∀ {u : State} {v : Ticket}, u.tt.belt = [v] → v.laneDest = t.laneDest → ∀ m, m ≠ l →
      u.attendLane m = u := by
    intro u v hu hv m hm
    refine attendLane_empty u m ?_
    rw [routeQueue_lone hu, if_neg]
    intro hqm
    have dest := (queuedAt_iff.mp hqm).1
    rw [hv, (queuedAt_iff.mp hq).1] at dest
    exact hm (Option.some.inj dest).symm
  have attended := (attendLane_arms s l queue ha hr).trans (arm_lone hb l)
  rw [State.attendAll, State.forLanes_one s l (others hb rfl), attended]
  · rfl
  · rw [attended]
    exact others rfl rfl

/-- The record of a resolved ticket that has been given a lane (R76, R81). -/
def resolvedTo (s : State) (t : Ticket) (st : Start) (l : Lane) : Ticket :=
  { t with
    state := .routed, tag := none, windowEnd := none, outlet := st.outlet, cls := some st.cls, dest := some (.lane l)
    reason := some st.reason, hops := 0, joined := false, nominal := some (s.nominalAt t st.cls l)
    span := some (spanOf s t st.cls), endBounds := none }

/-- The state in which a lane has been committed to the one ticket on the belt (R83). -/
def State.committedTo (s : State) (l : Lane) (v : Ticket) : State :=
  { s.withLone v with lanes := tableMod s.lanes l (fun r => { r with committed := r.committed + 1 }) }

theorem lead_committedTo (s : State) (l : Lane) (v : Ticket) : (s.committedTo l v).lead l = s.lead l := by
  refine lead_congr ?_ rfl
  rw [show (s.committedTo l v).lane l = (tableMod s.lanes l _).get l from rfl, tableMod_get, if_pos rfl]
  rfl

/-- The record of a ticket about to be walked from a start case (R76, R77). -/
def notedAs (t : Ticket) (st : Start) : Ticket :=
  { t with tag := none, windowEnd := none, outlet := st.outlet, cls := some st.cls }

theorem noted_lone (hb : s.tt.belt = [t]) (st : Start) : s.noted t.slot st = s.withLone (notedAs t st) :=
  modTicket_lone hb rfl _

theorem countRunOff_withLone (s : State) (v : Ticket) (r : Reason) :
    (s.withLone v).countRunOff r = (s.countRunOff r).withLone v := by
  unfold State.countRunOff
  split <;> rfl

theorem sendToRunOff_withLone {v : Ticket} {k : Slot} (hk : v.slot = k) (r : Reason)
    (hr : isReached s.bcu.count (endBoundsOf s v).2 = false) :
    (s.withLone v).sendToRunOff k r = (s.countRunOff r).withLone (ranOff s r v) := by
  rw [sendToRunOff_lone (s := s.withLone v) rfl hk r hr, countRunOff_withLone]
  rfl

theorem writeWalk_lane_lone (hb : s.tt.belt = [t]) (st : Start) (l : Lane) :
    (s.noted t.slot st).writeWalk t.slot st.cls ⟨some l, 0, st.reason⟩ = s.committedTo l (resolvedTo s t st l) := by
  rw [noted_lone hb]
  exact modTicket_lone (s := (s.withLone (notedAs t st)).commit l) rfl rfl _

/-- A walk that ends at a lane commits it, and the ticket is armed there (R81, R83, R117). -/
theorem resolved_lane_lone {st : Start} {planned : Count} (hb : s.tt.belt = [t]) (ha : (s.channel l).armed = none)
    (hp : planned = s.nominalAt t st.cls l - BitVec.ofNat 16 (s.lead l)) (hr : isReached s.bcu.count planned = false) :
    (((s.noted t.slot st).writeWalk t.slot st.cls ⟨some l, 0, st.reason⟩).crowd t.slot []).attendAll = { s with
      lanes := tableMod s.lanes l (fun r => { r with committed := r.committed + 1 })
      channels := tableMod s.channels l (fun ch =>
        { ch with armed := some { slot := t.slot, lead := s.lead l, planned := planned, lateLimit := none } })
      tt := { s.tt with belt := [{ resolvedTo s t st l with state := .armed, fireCount := some planned }] } } := by
  rw [writeWalk_lane_lone hb, crowd_lone (t := resolvedTo s t st l) rfl]
  exact attendAll_arms_lone (t := resolvedTo s t st l) rfl (queuedAt_iff.mpr ⟨rfl, .inl rfl⟩) ha
    (lead_committedTo s l _) hp.symm hr

/-- A walk that ends without a lane sends the ticket to run-off, its end window ahead (R82, R144). -/
theorem resolved_off_lone (hb : s.tt.belt = [t]) (st : Start) (r : Reason)
    (hr : isReached s.bcu.count (endBoundsOf s t).2 = false) :
    (((s.noted t.slot st).writeWalk t.slot st.cls ⟨none, 0, r⟩).crowd t.slot []).attendAll =
      (s.countRunOff r).withLone { ranOff s r (notedAs t st) with hops := 0 } := by
  have written : (s.noted t.slot st).writeWalk t.slot st.cls ⟨none, 0, r⟩ =
      (s.countRunOff r).withLone { ranOff s r (notedAs t st) with hops := 0 } := by
    rw [noted_lone hb]
    calc (s.withLone (notedAs t st)).writeWalk t.slot st.cls ⟨none, 0, r⟩
        = (s.withLone { notedAs t st with hops := 0 }).sendToRunOff t.slot r :=
          congrArg (State.sendToRunOff · t.slot r) (modTicket_lone (s := s.withLone (notedAs t st)) rfl rfl _)
      _ = _ := sendToRunOff_withLone (v := { notedAs t st with hops := 0 }) rfl r hr
  rw [written]
  exact settled_lone rfl rfl _

/-! ### The status character of the report -/

/-- A good read of a ticket alone on the belt, past its trailing edge, whose status character comes next, with the start
case that Table 5-1 gives for it. -/
structure ReadLone (s : State) (c : LineChar) (tag : Tag) (p f : Byte) (t : Ticket) (st : Start) : Prop where
  running : Running s
  good : c.good = true
  data : c.marked = false
  status : c.value.toNat < 16
  quality : s.cat.threshold ≤ c.value.toNat
  assembly : s.rli.assembly = .waitStatus tag p f
  belt : s.tt.belt = [t]
  pending : t.state = .pendingRead
  tagged : t.tag = some tag
  awaited : t.readHeld = false
  pastEye : s.ind.underEye ≠ some t.slot
  start : StartsAt s t p f st.outlet st.cls st.lane st.reason

/-- The state in which the read has come in and ended the streak, and the ticket is about to be walked. -/
def State.readCome (s : State) (t : Ticket) (p f v : Byte) : State :=
  { s.withLone (readAs t p f v) with
    rli := { s.rli with assembly := .waitHeader, gapTimer := 0 }
    ind := { s.ind with noReadStreak := 0 } }

variable {c : LineChar} {tag : Tag} {p f : Byte} {st : Start}

/-- The report completes, and its ticket is walked from its start case (R53, R54, R76). -/
theorem exec_readLone (h : ReadLone s c tag p f t st) : exec (.readerCharacter c) s = .next
    ((((s.readCome t p f c.value).noted t.slot st).writeWalk t.slot st.cls
      (((s.readCome t p f c.value).noted t.slot st).walk (readAs t p f c.value) st.cls st.lane st.reason)).crowd
        t.slot []).attendAll := by
  have data : ¬ c.marked = true := ne_true_of_eq_false h.data
  have matched : (s.setAssembly .waitHeader).pendingWithTag? tag = some t :=
    pendingWithTag?_lone h.belt h.pending h.tagged
  have past : (s.setAssembly .waitHeader).ind.underEye ≠ some t.slot := h.pastEye
  have written : (s.setAssembly .waitHeader).reported t p f c.value =
      (s.setAssembly .waitHeader).withLone (readAs t p f c.value) := by
    unfold State.reported
    rw [if_pos h.status]
    exact modTicket_lone (s := s.setAssembly .waitHeader) h.belt rfl _
  have start := startCase_of_startsAt h.start (u := readAs t p f c.value) rfl (usableRead_readAs h.status h.quality p f)
  rw [exec_readerCharacter h.running, State.readerReceives, if_pos h.good, if_neg data, readerData_status h.assembly,
    report_awaited matched h.awaited, if_pos ⟨h.status, h.quality⟩, if_neg past, written]
  exact congrArg _ (resolve_pending (ticketAt?_lone (t := readAs t p f c.value) rfl) h.pending (streak_good rfl) start)

/-- A good read whose start lane is eligible arms its ticket there (R78, R81, R83, R117). -/
theorem exec_readLone_arms {planned : Count} (h : ReadLone s c tag p f t st) (hl : st.lane = .lane l)
    (he : s.eligible t st.cls l = true) (ha : (s.channel l).armed = none)
    (hp : planned = s.nominalAt t st.cls l - BitVec.ofNat 16 (s.lead l))
    (hr : isReached s.bcu.count planned = false) : exec (.readerCharacter c) s = .next { s with
      rli := { s.rli with assembly := .waitHeader, gapTimer := 0 }
      ind := { s.ind with noReadStreak := 0 }
      lanes := tableMod s.lanes l (fun r => { r with committed := r.committed + 1 })
      channels := tableMod s.channels l (fun ch =>
        { ch with armed := some { slot := t.slot, lead := s.lead l, planned := planned, lateLimit := none } })
      tt := { s.tt with belt := [{ resolvedTo s (readAs t p f c.value) st l with
        state := .armed, fireCount := some planned }] } } := by
  have walk : ((s.readCome t p f c.value).noted t.slot st).walk (readAs t p f c.value) st.cls (.lane l) st.reason =
      ⟨some l, 0, st.reason⟩ := walk_eligible_start _ he
  rw [exec_readLone h, hl, walk]
  exact congrArg _ (resolved_lane_lone (s := s.readCome t p f c.value) (t := readAs t p f c.value) rfl ha hp hr)

/-- A good read whose walk finds no lane sends its ticket to run-off. -/
theorem exec_readLone_off {r : Reason} (h : ReadLone s c tag p f t st)
    (hw : s.walk t st.cls st.lane st.reason = ⟨none, 0, r⟩) (hr : isReached s.bcu.count (endBoundsOf s t).2 = false) :
    exec (.readerCharacter c) s = .next
      (((s.readCome t p f c.value).countRunOff r).withLone (readOff s t p f c.value st.outlet st.cls r)) := by
  have walk : ((s.readCome t p f c.value).noted t.slot st).walk (readAs t p f c.value) st.cls st.lane st.reason =
      ⟨none, 0, r⟩ := hw
  rw [exec_readLone h, walk]
  exact congrArg _ (resolved_off_lone (s := s.readCome t p f c.value) (t := readAs t p f c.value) rfl st r hr)

end Sys2Proof.Machine

open Sys2Proof.Machine Sys2Proof.Safety

/-- Settles O20: the report completes, Table 5-1 gives the start, and the walk ends there at once, at the start lane or
at run-off. -/
theorem reportRoutesTicketToItsLane : Obligations.ReportRoutesTicketToItsLane := by
  refine ⟨?_, ?_⟩
  · intro s c tag p f t o cls l hf planned hr hm hg hmk hv hq ha hb hp ht hh ho hu hpat hform hroute he harm hplan
      hreach
    have form : s.formClass f = some cls := (dif_pos hf).trans hform
    have start : StartsAt s t p f (some o) cls (.lane l) .routed :=
      hroute ▸ .routed o cls ho (mode_ne_drain hm) hpat form
    have read : ReadLone s c tag p f t ⟨some o, cls, .lane l, .routed⟩ :=
      ⟨hr, hg, hmk, hv, hq, ha, hb, hp, ht, hh, hu, start⟩
    exact exec_readLone_arms read rfl he harm hplan hreach
  · intro s c tag p f t o cls start r hatt hg hmk hv hq ha hb hp ht hh hu hstart
    have read : ReadLone s c tag p f t ⟨o, cls, start, r⟩ :=
      ⟨hatt.1, hg, hmk, hv, hq, ha, hb, hp, ht, hh, hu, hstart⟩
    refine ⟨?_, ?_, ?_⟩
    · rintro rfl hwindow
      rw [exec_readLone_off read (walk_runOff _ _ _ _) hwindow, countRunOff_of_startsAt hstart]
      rfl
    · rintro l planned rfl he harm hplan hreach
      exact exec_readLone_arms read rfl he harm hplan hreach
    · rintro l rfl he hend hwindow
      rw [exec_readLone_off read (walk_ineligible_end r he hend) hwindow]
      rfl
end
section
/-! The writes of the Ware Catalogue (section 4.7): what a block write comes to for any of the four tables, what a
record in range is for each, and the settings. -/

namespace Sys2Proof.Machine

open Safety

variable {s : State}

/-! ### Block writes (R69, R71) -/

/-- A table of the catalogue as its block write sees it: where it stands, how a record is decoded, and whether the value
stored for a record was clamped. -/
structure BlockTable (α β : Type) (n : Nat) where
  read : Catalogue → Vector β n
  write : Catalogue → Vector β n → Catalogue
  decode : α → Option β
  clamped : β → α → Bool

namespace BlockTable

variable {α β : Type} {n : Nat} (T : BlockTable α β n)

/-- The block write of the table. -/
def command (first : Byte) (rs : List α) (s : State) : State × Answer :=
  s.blockWrite first rs T.decode T.clamped (T.read s.cat) (fun v => { s with cat := T.write s.cat v })

/-- The value of a record was clamped. -/
def clamps (r : α) : Bool := (T.decode r).any (fun x => T.clamped x r)

/-- Some value of a decoded block was clamped when that of some record was. -/
theorem any_clamps {i : Nat} {rs : List α} {xs : List β} (h : decodeBlock T.decode i rs = .ok xs) :
    (xs.zip rs).any (fun p => T.clamped p.1 p.2) = rs.any T.clamps := by
  induction rs generalizing i xs with
  | nil =>
    cases h
    rfl
  | cons r rs ih =>
    unfold decodeBlock at h
    split at h
    · cases h
    · rename_i x hx
      split at h
      · cases h
      · rename_i ys hys
        cases h
        rw [List.zip_cons_cons, List.any_cons, List.any_cons, ih hys, clamps, hx]
        rfl

variable {first : Byte} {rs : List α}

/-- A block beyond its table applies nothing and names its first index. -/
theorem station_beyond (h : Listening s) (h1 : 1 ≤ rs.length) (h2 : rs.length ≤ 64) (h0 : 0 < n)
    (hn : n < first.toNat + rs.length) :
    s.station (T.command first rs) = .next (answered s .badParam [first]) :=
  State.station_answered h (blockWrite_outside first rs _ _ _ _ h1 h2 h0 hn) rfl

/-- A block within its table with a record out of range applies nothing and names the first such record. -/
theorem station_failed (h : Listening s) (h2 : rs.length ≤ 64) (hn : first.toNat + rs.length ≤ n) {pre post : List α}
    {r : α} (hrs : rs = pre ++ r :: post) (hpre : ∀ x ∈ pre, (T.decode x).isSome) (hr : T.decode r = none) :
    s.station (T.command first rs) = .next (answered s .badParam [first + BitVec.ofNat 8 pre.length]) := by
  have h1 : 1 ≤ rs.length := by rw [hrs, List.length_append, List.length_cons]; omega
  have inside : blockInside 0 (n - 1) first.toNat rs.length = true := by simp [blockInside]; omega
  have failed : decodeBlock T.decode first.toNat rs = .error (first.toNat + pre.length) :=
    hrs ▸ decodeBlock_error T.decode first.toNat pre r post hpre hr
  have index : byteOf (first.toNat + pre.length) = first + BitVec.ofNat 8 pre.length := by
    rw [byteOf, BitVec.ofNat_add, BitVec.ofNat_toNat, BitVec.setWidth_eq]
  refine State.station_answered h ?_ rfl
  rw [command, State.blockWrite, blockCountOk_of h1 h2, inside, failed, ← index]
  rfl

/-- A block within its table whose records are all in range is applied together, and nothing else changes. -/
theorem station_applied (h : Listening s) (h1 : 1 ≤ rs.length) (h2 : rs.length ≤ 64) (hn : first.toNat + rs.length ≤ n)
    (hrs : ∀ r ∈ rs, (T.decode r).isSome) :
    ∃ v : Vector β n, s.station (T.command first rs) = .next (answered { s with cat := T.write s.cat v }
        (clampStatus (rs.any T.clamps)) [first, BitVec.ofNat 8 rs.length]) ∧
      (∀ i : Fin n, (i.val < first.toNat ∨ first.toNat + rs.length ≤ i.val) → v.get i = (T.read s.cat).get i) ∧
      (∀ (i : Fin n) (r : α), first.toNat ≤ i.val → rs[i.val - first.toNat]? = some r →
        T.decode r = some (v.get i)) := by
  obtain ⟨xs, decoded, -, written, outside, within⟩ := blockWrite_ok (s := s.frameDone) first rs T.decode T.clamped
    (T.read s.cat) (fun v => { s.frameDone with cat := T.write s.cat v }) h1 h2 hn hrs
  rw [T.any_clamps decoded] at written
  exact ⟨_, State.station_answered (t := { s with cat := T.write s.cat _ }) h written rfl, outside, within⟩

/-- A table whose values are never clamped answers OK. -/
theorem status_ok (hc : ∀ r, T.clamps r = false) (rs : List α) : clampStatus (rs.any T.clamps) = .ok := by
  rw [List.any_eq_false.mpr (fun r _ => ne_true_of_eq_false (hc r))]
  rfl

end BlockTable

/-! ### The four tables (R59, R61, R62, R64) -/

def patternTable : BlockTable PatternWrite PatternEntry 256 where
  read c := c.patterns
  write c v := { c with patterns := v }
  decode := patternParam?
  clamped := neverClamped

def formTable : BlockTable Byte (Option WareClass) 64 where
  read c := c.forms
  write c v := { c with forms := v }
  decode := formParam?
  clamped := neverClamped

def classTable : BlockTable ClassWrite ClassRecord 8 where
  read c := c.classes
  write c v := { c with classes := v }
  decode w := some (classParam w)
  clamped r w := r.minStroke != w.minStroke.toNat

def routeTable : BlockTable Byte Dest 64 where
  read c := c.routes
  write c v := { c with routes := v }
  decode b := destParam? b.toNat
  clamped := neverClamped

theorem exec_writePatterns (first : Byte) (rs : List PatternWrite) (s : State) :
    exec (.writePatterns first rs) s = s.station (patternTable.command first rs) := rfl

theorem exec_writeForms (first : Byte) (rs : List Byte) (s : State) :
    exec (.writeForms first rs) s = s.station (formTable.command first rs) := rfl

theorem exec_writeClasses (first : Byte) (rs : List ClassWrite) (s : State) :
    exec (.writeClasses first rs) s = s.station (classTable.command first rs) := rfl

theorem exec_writeRoutes (first : Byte) (rs : List Byte) (s : State) :
    exec (.writeRoutes first rs) s = s.station (routeTable.command first rs) := rfl

/-- A clamp that never happens is seen of no record. -/
theorem any_neverClamped {α β : Type} (o : Option β) (r : α) : o.any (fun x => neverClamped x r) = false := by
  cases o <;> rfl

/-! ### Records in range (R70) -/

theorem eighth?_of_lt {b : Byte} (h : b.toNat < 8) : eighth? b = some (Fin.ofNat 8 b.toNat) := by
  rw [eighth?, dif_pos h]
  exact congrArg some (Fin.ext (Nat.mod_eq_of_lt h).symm)

theorem eighth?_of_ge {b : Byte} (h : 8 ≤ b.toNat) : eighth? b = none := dif_neg (Nat.not_lt.mpr h)

/-- A pattern record in range: UNUSED, or ACTIVE or SUSPENDED with an owner 0 to 7 (R59). -/
theorem patternParam?_of_valid {w : PatternWrite} (h : w.state.toNat = 0 ∨ (w.state.toNat ≤ 2 ∧ w.owner.toNat < 8)) :
    patternParam? w = some (if w.state.toNat = 0 then .unused
      else if w.state.toNat = 1 then .active (Fin.ofNat 8 w.owner.toNat)
      else .suspended (Fin.ofNat 8 w.owner.toNat)) := by
  unfold patternParam?
  obtain unused | ⟨known, owner⟩ := h
  · rw [unused]
    rfl
  · rw [eighth?_of_lt owner]
    generalize w.state.toNat = n at known
    interval_cases n <;> rfl

theorem patternParam?_of_invalid {w : PatternWrite}
    (h : 2 < w.state.toNat ∨ (w.state.toNat ≠ 0 ∧ 8 ≤ w.owner.toNat)) : patternParam? w = none := by
  unfold patternParam?
  split
  · omega
  · rw [eighth?_of_ge (by omega)]
    rfl
  · rw [eighth?_of_ge (by omega)]
    rfl
  · rfl

/-- A form record in range: a class 0 to 7, or FFh (R61). -/
theorem formParam?_of_valid {b : Byte} (h : b.toNat < 8 ∨ b = 0xFF) :
    formParam? b = some (if b = 0xFF then none else some (Fin.ofNat 8 b.toNat)) := by
  unfold formParam?
  split
  · rfl
  · rename_i ne
    rw [eighth?_of_lt (h.resolve_right ne)]
    rfl

theorem formParam?_of_invalid {b : Byte} (h : 8 ≤ b.toNat) (hne : b ≠ 0xFF) : formParam? b = none := by
  rw [formParam?, if_neg hne, eighth?_of_ge h]
  rfl

/-- A number 0 to 12 is that of a destination (R64). -/
theorem destParam?_of_le {n : Nat} (h : n ≤ 12) : ∃ d : Dest, d.number = n ∧ destParam? n = some d := by
  obtain ⟨d, rfl⟩ : ∃ d : Dest, d.number = n := by
    obtain rfl | pos := Nat.eq_zero_or_pos n
    · exact ⟨.runOff, rfl⟩
    · exact ⟨.lane ⟨n - 1, by omega⟩, Nat.sub_add_cancel pos⟩
  exact ⟨d, rfl, destParam?_number d⟩

/-- The min stroke alone is clamped, to 1 to 1023 (R62). -/
theorem classTable_clamps (w : ClassWrite) :
    classTable.clamps w = true ↔ ¬ (1 ≤ w.minStroke.toNat ∧ w.minStroke.toNat ≤ 1023) := by
  show (clampTo 1 1023 w.minStroke.toNat != w.minStroke.toNat) = true ↔ _
  rw [bne_iff_ne, clampTo]
  omega

theorem status_classTable (rs : List ClassWrite) : clampStatus (rs.any classTable.clamps) =
    if ∀ w ∈ rs, 1 ≤ w.minStroke.toNat ∧ w.minStroke.toNat ≤ 1023 then .ok else .clamped := by
  unfold clampStatus
  split
  · rename_i some
    obtain ⟨w, hw, hc⟩ := List.any_eq_true.mp some
    exact (if_neg fun all => (classTable_clamps w).mp hc (all w hw)).symm
  · rename_i none
    refine (if_pos fun w hw => ?_).symm
    by_contra out
    exact none (List.any_eq_true.mpr ⟨w, hw, (classTable_clamps w).mpr out⟩)

/-! ### The settings (R73) -/

section Settings

variable {r : SettingsWrite} (h : Listening s)

include h

theorem writeSettings_badLane (hl : 12 < r.residueLane.toNat) :
    exec (.writeCatalogueSettings r) s = .next (answered s .badParam [0]) := by
  refine State.station_answered h ?_ rfl
  rw [cmdWriteSettings, destParam?_none hl]
  rfl

theorem writeSettings_badClass (hl : r.residueLane.toNat ≤ 12) (hc : 7 < r.defaultClass.toNat) :
    exec (.writeCatalogueSettings r) s = .next (answered s .badParam [1]) := by
  obtain ⟨d, -, residue⟩ := destParam?_of_le hl
  refine State.station_answered h ?_ rfl
  rw [cmdWriteSettings, residue, eighth?_of_ge hc]
  rfl

/-- The settings in range are written together, the threshold clamped to 15, and the reply carries them as applied. -/
theorem writeSettings_applied {d : Dest} (hd : d.number = r.residueLane.toNat) (hc : r.defaultClass.toNat ≤ 7) :
    exec (.writeCatalogueSettings r) s = .next (answered { s with cat := { s.cat with
        residueLane := d, defaultClass := Fin.ofNat 8 r.defaultClass.toNat, threshold := min r.threshold.toNat 15 } }
      (if r.threshold.toNat ≤ 15 then .ok else .clamped)
      [r.residueLane, r.defaultClass, byteOf (min r.threshold.toNat 15)]) := by
  have status : clampStatus (min r.threshold.toNat 15 != r.threshold.toNat) =
      if r.threshold.toNat ≤ 15 then .ok else .clamped := by
    by_cases small : r.threshold.toNat ≤ 15
    · rw [if_pos small, Nat.min_eq_left small, bne_self_eq_false]
      rfl
    · rw [if_neg small, clampStatus, if_pos (bne_iff_ne.mpr (by omega))]
  have cls : byteOf (Fin.ofNat 8 r.defaultClass.toNat).val = r.defaultClass := by
    rw [Fin.val_ofNat, Nat.mod_eq_of_lt (Nat.lt_succ_of_le hc), byteOf_toNat]
  refine State.station_answered (t := { s with cat := { s.cat with
    residueLane := d, defaultClass := Fin.ofNat 8 r.defaultClass.toNat
    threshold := min r.threshold.toNat 15 } }) h ?_ rfl
  rw [cmdWriteSettings, ← hd, destParam?_number, eighth?_of_lt (Nat.lt_succ_of_le hc), ← status]
  dsimp only [Catalogue.settingsChars]
  rw [code_of_number hd, cls]
  rfl

end Settings

end Sys2Proof.Machine

open Sys2Proof.Machine Sys2Proof.Safety

/-- Settles O52, table by table. -/
theorem catalogueWrites : Obligations.CatalogueWrites := by
  intro s first h
  refine ⟨fun rs h1 h2 => ⟨fun hn => ?_, fun pre post w hn hrs hpre hw => ?_, fun hn hrs => ?_⟩,
    fun rs h1 h2 hn => ⟨?_, ?_⟩, fun rs h1 h2 hn => ?_,
    fun rs h1 h2 hn => ⟨fun pre post b hrs hpre hb hne => ?_, fun hrs => ?_, fun pre post b hrs hpre hb => ?_,
      fun hrs => ?_⟩,
    fun rs h1 hn => ?_, fun r => ⟨writeSettings_badLane h, writeSettings_badClass h, fun d => writeSettings_applied h⟩⟩
  · exact patternTable.station_beyond h h1 h2 (by decide) hn
  · exact patternTable.station_failed h h2 hn hrs
      (fun x hx => Option.isSome_of_eq_some (patternParam?_of_valid (hpre x hx))) (patternParam?_of_invalid hw)
  · obtain ⟨v, applied, outside, within⟩ := patternTable.station_applied h h1 h2 hn
      (fun w hw => Option.isSome_of_eq_some (patternParam?_of_valid (hrs w hw)))
    rw [patternTable.status_ok (fun w => any_neverClamped _ w)] at applied
    refine ⟨v, applied, outside, fun i w hi hw => ?_⟩
    exact Option.some.inj ((within i w hi hw).symm.trans (patternParam?_of_valid (hrs w (List.mem_of_getElem? hw))))
  · exact formTable.station_beyond h h1 h2 (by decide) hn
  · exact routeTable.station_beyond h h1 h2 (by decide) hn
  · exact classTable.station_beyond h h1 h2 (by decide) hn
  · exact formTable.station_failed h h2 hn hrs
      (fun x hx => Option.isSome_of_eq_some (formParam?_of_valid (hpre x hx))) (formParam?_of_invalid hb hne)
  · obtain ⟨v, applied, outside, within⟩ := formTable.station_applied h h1 h2 hn
      (fun b hb => Option.isSome_of_eq_some (formParam?_of_valid (hrs b hb)))
    rw [formTable.status_ok (fun b => any_neverClamped _ b)] at applied
    refine ⟨v, applied, outside, fun i b hi hb => ?_⟩
    exact Option.some.inj ((within i b hi hb).symm.trans (formParam?_of_valid (hrs b (List.mem_of_getElem? hb))))
  · refine routeTable.station_failed h h2 hn hrs (fun x hx => ?_) (destParam?_none hb)
    obtain ⟨d, -, found⟩ := destParam?_of_le (hpre x hx)
    exact Option.isSome_of_eq_some found
  · obtain ⟨v, applied, outside, within⟩ := routeTable.station_applied h h1 h2 hn (fun b hb => by
      obtain ⟨d, -, found⟩ := destParam?_of_le (hrs b hb)
      exact Option.isSome_of_eq_some found)
    rw [routeTable.status_ok (fun b => any_neverClamped _ b)] at applied
    refine ⟨v, applied, outside, fun i b hi hb => ?_⟩
    obtain ⟨d, number, found⟩ := destParam?_of_le (hrs b (List.mem_of_getElem? hb))
    rw [← Option.some.inj (found.symm.trans (within i b hi hb)), number]
  · obtain ⟨v, applied, outside, within⟩ := classTable.station_applied h h1 (by omega) hn (fun _ _ => rfl)
    rw [status_classTable] at applied
    exact ⟨v, applied, outside, fun i w hi hw => (Option.some.inj (within i w hi hw)).symm⟩
end

section
/-! Sections 2.3 and 5.3: every lane's committed count is the number of live tickets that hold a commitment there (R27, R83,
R84). An operation that moves a commitment releases it and then writes the record anew, or the other way round; between the
two, every commitment is counted but that of one ticket. -/

namespace Sys2Proof.Machine

open Sys2Proof.Safety

/-! ### The commitment of a record (R27) -/

/-- A commitment is held at the destination lane. -/
theorem laneDest_of_commitment {t : Ticket} {l : Lane} (h : t.commitment = some l) : t.laneDest = some l := by
  unfold Ticket.commitment at h
  split at h
  iterate 4 · exact h
  all_goals cases h

theorem commitment_of_noLane {t : Ticket} (h : t.laneDest = none) : t.commitment = none := by
  unfold Ticket.commitment
  split
  iterate 4 · exact h
  all_goals rfl

theorem commitment_of_queuedAt {t : Ticket} {l : Lane} (h : t.queuedAt l = true) : t.commitment = some l := by
  obtain ⟨dest, waits⟩ := queuedAt_iff.mp h
  exact (commitment_of_waiting waits).trans dest

theorem commitment_of_pending {t : Ticket} (h : t.isPending = true) : t.commitment = none := by
  have pending : t.state = .pendingRead := by simpa [Ticket.isPending] using h
  simp only [Ticket.commitment, pending]

/-- A record changed with its place kept holds the commitment it held. -/
theorem SamePlace.commitment {t u : Ticket} (h : SamePlace t u) : u.commitment = t.commitment := by
  unfold Ticket.commitment Ticket.laneDest
  rw [h.state, h.dest]

/-- The ticket leaves ARMED for ROUTED, and holds what it held (R118). -/
theorem commitment_disarmed (t : Ticket) (f : Option Count) :
    Ticket.commitment { t with fireCount := f, state := if t.state = .armed then .routed else t.state } =
      t.commitment := by
  unfold Ticket.commitment
  by_cases armed : t.state = .armed
  · simp only [armed, if_true]; rfl
  · simp only [if_neg armed]; rfl

/-- The live ticket in a slot holds this commitment. -/
def HeldAt (s : State) (k : Slot) (c : Option Lane) : Prop := ∃ t ∈ s.tt.belt, t.slot = k ∧ t.commitment = c

theorem heldAt_of_mem {s : State} {t : Ticket} (h : t ∈ s.tt.belt) : HeldAt s t.slot t.commitment := ⟨t, h, rfl, rfl⟩

theorem heldAt_of_ticketAt? {s : State} {k : Slot} {t : Ticket} (h : s.ticketAt? k = some t) :
    HeldAt s k t.commitment := by
  obtain ⟨live, rfl⟩ := State.ticketAt?_some h
  exact heldAt_of_mem live

/-- With slots distinct, what a slot's ticket holds is what every live ticket of that slot holds. -/
theorem HeldAt.commitment {s : State} {k : Slot} {c : Option Lane} (h : HeldAt s k c) (hd : SlotsDistinct s) {u : Ticket}
    (hu : u ∈ s.tt.belt) (hk : u.slot = k) : u.commitment = c := by
  obtain ⟨t, ht, rfl, rfl⟩ := h
  have found := State.ticketAt?_of_mem hd hu
  rw [hk, State.ticketAt?_of_mem hd ht] at found
  rw [Option.some.inj found]

/-- A record written anew holds what was written. -/
theorem HeldAt.written {s : State} {k : Slot} {c : Option Lane} (h : HeldAt s k c) (f : Ticket → Ticket) {d : Option Lane}
    (hs : ∀ t, (f t).slot = t.slot) (hf : ∀ t, (f t).commitment = d) : HeldAt (s.modTicket k f) k d := by
  obtain ⟨t, ht, at_k, -⟩ := h
  refine ⟨f t, ?_, (hs t).trans at_k, hf t⟩
  rw [State.belt_modTicket]
  exact List.mem_map.mpr ⟨t, ht, if_pos at_k⟩

/-- The armed ticket of a channel holds a commitment at its lane (R27, R114). -/
theorem armedTicket?_held {s : State} {l : Lane} {t : Ticket} (h : s.armedTicket? l = some t) :
    HeldAt s t.slot (some l) ∧ t.commitment = some l := by
  unfold State.armedTicket? at h; split at h
  · cases h
  · split at h
    · cases h
    · rename_i u found
      split at h
      · rename_i armed
        obtain rfl : u = t := Option.some.inj h
        have held : u.commitment = some l := (commitment_of_waiting (.inr armed.1)).trans armed.2
        exact ⟨held ▸ heldAt_of_mem (State.ticketAt?_some found).1, held⟩
      · cases h

/-! ### Changes that move no commitment -/

/-- Every live ticket keeps its slot and its commitment, and every lane its committed count. -/
structure SameCommitments (s t : State) : Prop where
  tickets : t.tt.belt.map (fun u => (u.slot, u.commitment)) = s.tt.belt.map (fun u => (u.slot, u.commitment)) := by rfl
  lanes : ∀ l, (t.lane l).committed = (s.lane l).committed := by exact fun _ => rfl

theorem SameCommitments.heldAt {s t : State} (h : SameCommitments s t) {k : Slot} {c : Option Lane} :
    HeldAt t k c ↔ HeldAt s k c := by
  have listed : ∀ u : State, HeldAt u k c ↔ (k, c) ∈ u.tt.belt.map (fun v => (v.slot, v.commitment)) := by
    intro u
    simp only [HeldAt, List.mem_map, Prod.mk.injEq]
  rw [listed, listed, h.tickets]

/-- A record changed with its slot and its commitment kept. -/
theorem SameCommitments.modTicket (s : State) (k : Slot) (f : Ticket → Ticket) (hs : ∀ t, (f t).slot = t.slot)
    (hc : ∀ t ∈ s.tt.belt, t.slot = k → (f t).commitment = t.commitment) : SameCommitments s (s.modTicket k f) where
  tickets := by
    rw [State.belt_modTicket, List.map_map]
    refine List.map_congr_left (fun t ht => ?_)
    simp only [Function.comp_apply]; split
    · rename_i at_k; rw [hs, hc t ht at_k]
    · rfl

theorem SameCommitments.disarm (s : State) (l : Lane) : SameCommitments s (s.disarm l) := by
  unfold State.disarm; split
  · exact {}
  · rename_i a _
    have kept := SameCommitments.modTicket s a.slot
      (fun t => { t with fireCount := none, state := if t.state = .armed then .routed else t.state })
      (fun _ => rfl) (fun t _ _ => commitment_disarmed t none)
    exact ⟨kept.tickets, kept.lanes⟩

theorem SameCommitments.disarmOf (s : State) (t : Ticket) : SameCommitments s (s.disarmOf t) := by
  unfold State.disarmOf; split
  · split
    · exact SameCommitments.disarm s _
    · exact {}
  · exact {}

/-! ### Commitments counted but for one -/

/-- The commitments that live tickets other than the one in a slot hold at a lane. -/
def commitmentsBut (s : State) (k : Slot) (l : Lane) : Nat :=
  s.tt.belt.countP (fun t => t.commitment == some l && t.slot != k)

/-- Every commitment is counted at its lane, but that of the ticket in one slot. -/
structure KeptBut (k : Slot) (s : State) : Prop where
  slots : SlotsDistinct s
  counts : ∀ l, (s.lane l).committed = commitmentsBut s k l

/-- A live ticket adds its own commitment to those of the others. -/
theorem commitmentsAt_eq {s : State} (hd : SlotsDistinct s) {k : Slot} {c : Option Lane} (h : HeldAt s k c) (l : Lane) :
    commitmentsAt s l = commitmentsBut s k l + if c = some l then 1 else 0 := by
  obtain ⟨t, ht, rfl, rfl⟩ := h
  unfold commitmentsAt commitmentsBut
  unfold SlotsDistinct at hd
  generalize s.tt.belt = belt at hd ht
  induction belt with
  | nil => cases ht
  | cons u belt ih =>
    obtain ⟨unique, hd⟩ := List.nodup_cons.mp hd
    rw [List.countP_cons, List.countP_cons]
    by_cases head : u.slot = t.slot
    · have others : ∀ v ∈ belt, v.slot ≠ t.slot := fun v hv e =>
        unique (List.mem_map.mpr ⟨v, hv, e.trans head.symm⟩)
      obtain rfl : t = u := (List.mem_cons.mp ht).resolve_right (fun hm => others t hm rfl)
      have rest : belt.countP (fun v => v.commitment == some l && v.slot != t.slot) =
          belt.countP (fun v => v.commitment == some l) :=
        List.countP_congr (fun v hv => by simp [others v hv])
      simp [rest]
    · have tail : t ∈ belt := (List.mem_cons.mp ht).resolve_left (fun e => head (e ▸ rfl))
      rw [ih hd tail]
      simp [head]
      omega

/-- A ticket that holds none is missed by no count. -/
theorem commitmentsAt_of_free {s : State} {k : Slot} (h : ∀ t ∈ s.tt.belt, t.slot = k → t.commitment = none) (l : Lane) :
    commitmentsAt s l = commitmentsBut s k l := by
  refine List.countP_congr (fun t ht => ?_)
  by_cases at_k : t.slot = k
  · simp [h t ht at_k]
  · simp [at_k]

namespace KeptBut

variable {k : Slot} {s : State}

/-- The ticket whose commitment is not counted changes freely. -/
theorem modTicket (h : KeptBut k s) (f : Ticket → Ticket) (hs : ∀ t, (f t).slot = t.slot := by intro _; rfl) :
    KeptBut k (s.modTicket k f) where
  slots := (Steady.modTicket s k f hs).distinct h.slots
  counts l := by
    rw [State.lane_modTicket, h.counts l, commitmentsBut, commitmentsBut, State.belt_modTicket, List.countP_map]
    refine List.countP_congr (fun t _ => ?_)
    simp only [Function.comp_apply]; split
    · rename_i at_k; simp [hs, at_k]
    · rfl

/-- The ticket holds none in the end. -/
theorem settled (h : KeptBut k s) (free : ∀ t ∈ s.tt.belt, t.slot = k → t.commitment = none) : CommitmentsKept s :=
  ⟨h.slots, fun l => (h.counts l).trans (commitmentsAt_of_free free l).symm⟩

/-- The record is written as one that holds none. -/
theorem written (h : KeptBut k s) (f : Ticket → Ticket) (hs : ∀ t, (f t).slot = t.slot := by intro _; rfl)
    (hf : ∀ t, (f t).commitment = none := by intro _; rfl) : CommitmentsKept (s.modTicket k f) := by
  refine (h.modTicket f hs).settled (fun t ht at_k => ?_)
  rw [State.belt_modTicket] at ht
  obtain ⟨u, -, rfl⟩ := List.mem_map.mp ht
  split
  · exact hf u
  · rename_i elsewhere
    rw [if_neg elsewhere] at at_k
    exact absurd at_k elsewhere

/-- The ticket's commitment is made at its lane (R83). -/
theorem commit (h : KeptBut k s) {l : Lane} (held : HeldAt s k (some l)) : CommitmentsKept (s.commit l) where
  slots := h.slots
  counts m := by
    have count := commitmentsAt_eq h.slots held m
    rw [State.commit, State.lane_modLane]
    show _ = commitmentsAt s m
    rw [count, ← h.counts m]
    split
    · rename_i e; subst e; simp
    · rename_i ne; simp [Ne.symm ne]

/-- A ticket is given a lane: its record is written, and the lane committed (R81, R83). -/
theorem giveLane (h : KeptBut k s) {held : Option Lane} (live : HeldAt s k held) (c : WareClass) (l : Lane) (r : Reason)
    (n : Nat) : CommitmentsKept (s.giveLane k c l r n) :=
  (h.modTicket _).commit (live.written _ (fun _ => rfl) (fun _ => rfl))

end KeptBut
end Sys2Proof.Machine
end

section
/-! The same for the operations on tickets, channels and drives, through resolution and the re-resolution pass, down to the
step. -/

namespace Sys2Proof.Safety.CommitmentsKept

open Sys2Proof.Machine

variable {s : State}

/-! ### Single updates -/

/-- Nothing moves a commitment. -/
theorem same (h : CommitmentsKept s) {t : State} (e : SameCommitments s t) : CommitmentsKept t where
  slots := by
    have listed : ∀ u : State, u.tt.belt.map Ticket.slot = (u.tt.belt.map (fun v => (v.slot, v.commitment))).map Prod.fst :=
      fun u => by rw [List.map_map]; rfl
    have := h.slots
    unfold SlotsDistinct at this ⊢
    rw [listed, e.tickets, ← listed]; exact this
  counts l := by
    have listed : ∀ u : State, commitmentsAt u l =
        (u.tt.belt.map (fun v => (v.slot, v.commitment))).countP (fun v => v.2 == some l) :=
      fun u => by rw [List.countP_map]; rfl
    rw [e.lanes, h.counts, listed, listed, e.tickets]

/-- The tickets and the lanes as they were. -/
theorem alike (h : CommitmentsKept s) {t : State} (hb : t.tt.belt = s.tt.belt := by rfl)
    (hl : t.lanes = s.lanes := by rfl) : CommitmentsKept t :=
  h.same ⟨by rw [hb], fun l => by rw [State.lane, hl]; rfl⟩

theorem modTicket (h : CommitmentsKept s) (k : Slot) (f : Ticket → Ticket)
    (hs : ∀ t, (f t).slot = t.slot := by intro _; rfl)
    (hc : ∀ t ∈ s.tt.belt, t.slot = k → (f t).commitment = t.commitment := by intro _ _ _; rfl) :
    CommitmentsKept (s.modTicket k f) := h.same (.modTicket s k f hs hc)

theorem modChannel (h : CommitmentsKept s) (l : Lane) (f : Channel → Channel) : CommitmentsKept (s.modChannel l f) :=
  h.alike

theorem modDrive (h : CommitmentsKept s) (l : Lane) (f : Drive → Drive) : CommitmentsKept (s.modDrive l f) := h.alike

theorem setMode (h : CommitmentsKept s) (m : Mode) : CommitmentsKept (s.setMode m) := h.alike

/-- A lane record changes with its committed count kept. -/
theorem modLane (h : CommitmentsKept s) (l : Lane) (f : LaneRecord → LaneRecord)
    (hf : ∀ r, (f r).committed = r.committed := by intro _; rfl) : CommitmentsKept (s.modLane l f) := by
  refine h.same ⟨rfl, fun m => ?_⟩
  rw [State.lane_modLane]; split
  · rename_i e; subst e; exact hf _
  · rfl

theorem forLanes (h : CommitmentsKept s) {f : State → Lane → State}
    (hf : ∀ u l, CommitmentsKept u → CommitmentsKept (f u l)) : CommitmentsKept (s.forLanes f) :=
  State.forLanes_keeps s h hf

/-- A stroke that ends leaves its tickets' commitments (R125). -/
theorem endStroking (h : CommitmentsKept s) (l : Lane) (m : Marks → Marks) : CommitmentsKept (s.endStroking l m) := by
  refine h.same ⟨?_, fun _ => rfl⟩
  simp only [State.endStroking, List.map_map]
  refine List.map_congr_left (fun t _ => ?_)
  simp only [Function.comp_apply]; split
  · rename_i strokes
    simp only [Ticket.commitment, strokes.1]; rfl
  · rfl

/-! ### Releases and retirement (R27, R28) -/

/-- The commitment of a live ticket is released (R84). -/
theorem releaseOf (h : CommitmentsKept s) {t : Ticket} (held : HeldAt s t.slot t.commitment) :
    KeptBut t.slot (s.releaseOf t) where
  slots := by have := h.slots; unfold SlotsDistinct at this ⊢; rw [State.releaseOf_tt]; exact this
  counts l := by
    have count := commitmentsAt_eq h.slots held l
    have others : commitmentsBut (s.releaseOf t) t.slot l = commitmentsBut s t.slot l := by
      simp only [commitmentsBut, State.releaseOf_tt]
    rw [State.lane_releaseOf, others]
    dsimp only
    rw [h.counts l, count, Nat.add_sub_cancel]

/-- A live ticket is disarmed and its commitment released. -/
theorem letGo (h : CommitmentsKept s) {t : Ticket} (held : HeldAt s t.slot t.commitment) :
    KeptBut t.slot ((s.disarmOf t).releaseOf t) :=
  (h.same (.disarmOf s t)).releaseOf ((SameCommitments.disarmOf s t).heldAt.mpr held)

/-- Its record goes on naming the lane until it is written anew. -/
theorem heldAt_letGo {t : Ticket} (live : t ∈ s.tt.belt) :
    HeldAt ((s.disarmOf t).releaseOf t) t.slot t.commitment := by
  unfold HeldAt
  rw [State.releaseOf_tt]
  exact (SameCommitments.disarmOf s t).heldAt.mpr (heldAt_of_mem live)

/-- A ticket that holds none may be given a lane. -/
theorem free (h : CommitmentsKept s) {k : Slot} (held : HeldAt s k none) : KeptBut k s :=
  ⟨h.slots, fun l => (h.counts l).trans (commitmentsAt_of_free (fun _ => held.commitment h.slots) l)⟩

theorem remove (h : CommitmentsKept s) {t : Ticket} (held : HeldAt s t.slot t.commitment) (o : TicketOutcome) :
    CommitmentsKept (s.remove t o) where
  slots := (Steady.remove s t o).distinct h.slots
  counts l := by
    have count := commitmentsAt_eq h.slots held l
    have others : commitmentsAt (s.remove t o) l = commitmentsBut s t.slot l := by
      rw [commitmentsAt, State.belt_remove, List.countP_filter, commitmentsBut]
      exact List.countP_congr (fun u _ => by simp)
    rw [State.lane_remove, others]
    dsimp only
    rw [h.counts l, count, Nat.add_sub_cancel]

theorem enterSetup (h : CommitmentsKept s) : CommitmentsKept s.enterSetup :=
  (h.setMode .setup).forLanes (fun _ _ hu => ite_keeps ((hu.modChannel _ _).modDrive _ _) hu)

theorem drainCheck (h : CommitmentsKept s) : CommitmentsKept s.drainCheck := ite_keeps h.enterSetup h

theorem retire (h : CommitmentsKept s) (k : Slot) (o : TicketOutcome) : CommitmentsKept (s.retire k o) := by
  unfold State.retire; split
  · exact h
  · rename_i t found
    exact (h.remove (heldAt_of_mem (State.ticketAt?_some found).1) o).drainCheck

/-- Each live ticket is removed with the commitment it holds, which no removal of another has touched (R32). -/
theorem flush (h : CommitmentsKept s) : CommitmentsKept s.flush := by
  have removed : ∀ (ts : List Ticket) (u : State), CommitmentsKept u → (ts.map Ticket.slot).Nodup →
      (∀ t ∈ ts, HeldAt u t.slot t.commitment) → CommitmentsKept (ts.foldl (fun s t => s.remove t .flushed) u) := by
    intro ts
    induction ts with
    | nil => intro u hu _ _; exact hu
    | cons t ts ih =>
      intro u hu distinct held
      obtain ⟨unique, distinct⟩ := List.nodup_cons.mp distinct
      refine ih _ (hu.remove (held t List.mem_cons_self) _) distinct (fun v hv => ?_)
      obtain ⟨w, live, slot, commitment⟩ := held v (List.mem_cons_of_mem _ hv)
      have other : w.slot ≠ t.slot := fun e => unique (List.mem_map.mpr ⟨v, hv, slot.symm.trans e⟩)
      exact ⟨w, by rw [State.belt_remove, List.mem_filter]; exact ⟨live, by simpa using other⟩, slot, commitment⟩
  exact removed _ s h h.slots (fun _ => heldAt_of_mem)

/-! ### The end of the belt (R144) -/

theorem countRunOff (h : CommitmentsKept s) (r : Reason) : CommitmentsKept (s.countRunOff r) := by
  unfold State.countRunOff; split
  · exact h.alike
  · exact h

theorem storeBounds (h : CommitmentsKept s) (k : Slot) : CommitmentsKept (s.storeBounds k) := h.modTicket _ _

/-- A ticket whose commitment is released is sent to run-off, where it holds none (R82). -/
theorem of_sendToRunOff {k : Slot} (h : KeptBut k s) (r : Reason) : CommitmentsKept (s.sendToRunOff k r) := by
  have off := h.written (fun t => { t with
    state := .runningOff, dest := some .runOff, reason := some r, joined := false, nominal := none, span := none })
  have bounded := (off.countRunOff r).storeBounds k
  exact ite_keeps (bounded.retire k _) bounded

/-! ### Diverts -/

/-- A ticket of the route queue is armed where it holds its commitment (R117). -/
theorem arm (h : CommitmentsKept s) {l : Lane} {t : Ticket} (ht : t ∈ s.routeQueue l) : CommitmentsKept (s.arm l t) := by
  obtain ⟨live, queued⟩ := mem_routeQueue.mp ht
  have held := commitment_of_queuedAt queued
  refine (h.modChannel l _).modTicket _ _ (fun _ => rfl) (fun u hu at_t => ?_)
  have same : u.commitment = some l := held ▸ (heldAt_of_mem live).commitment h.slots hu at_t
  rw [same]
  show u.laneDest = some l
  exact laneDest_of_commitment same

/-- A ticket whose fire is taken goes on holding its commitment (R27, R120). -/
theorem takeFire (h : CommitmentsKept s) {l : Lane} {t : Ticket} (held : HeldAt s t.slot (some l)) :
    CommitmentsKept (s.takeFire l t) := by
  refine (h.modChannel l _).modTicket _ _ (fun _ => rfl) (fun u hu at_t => ?_)
  have same : u.commitment = some l := held.commitment h.slots hu at_t
  rw [same]
  show u.laneDest = some l
  exact laneDest_of_commitment same

theorem beginStroke (h : CommitmentsKept s) {l : Lane} {t : Ticket} (held : HeldAt s t.slot (some l)) :
    CommitmentsKept (s.beginStroke l t) := ((h.takeFire held).modChannel _ _).modDrive _ _

theorem extendStroke (h : CommitmentsKept s) {l : Lane} {t : Ticket} (held : HeldAt s t.slot (some l)) :
    CommitmentsKept (s.extendStroke l t) := by
  unfold State.extendStroke; split
  · exact (h.takeFire held).modChannel _ _
  · exact ((h.takeFire held).modChannel _ _).modDrive _ _

theorem deferFire (h : CommitmentsKept s) (l : Lane) (t : Ticket) : CommitmentsKept (s.deferFire l t) :=
  (h.modTicket _ _).modChannel _ _

theorem missFire (h : CommitmentsKept s) (l : Lane) {t : Ticket} (held : HeldAt s t.slot t.commitment) :
    CommitmentsKept (s.missFire l t) :=
  of_sendToRunOff ((h.modChannel l _).releaseOf held) _

theorem fire (h : CommitmentsKept s) (l : Lane) (late : Bool) : CommitmentsKept (s.fire l late) := by
  obtain he | ⟨t, u, armed, hu, hc⟩ := fire_cases s l late
  · rw [he]; exact h
  obtain ⟨live, commitment⟩ := armedTicket?_held armed
  have marked : SameCommitments s u := by
    rw [hu]; split
    · exact .modTicket _ _ _ (fun _ => rfl) (fun _ _ _ => rfl)
    · exact {}
  have k := h.same marked
  have held := marked.heldAt.mpr live
  obtain ⟨-, he⟩ | ⟨-, he⟩ | ⟨-, ⟨-, he⟩ | ⟨-, he⟩ | ⟨-, he⟩⟩ := hc <;> rw [he]
  · exact k
  · exact k.missFire l (commitment ▸ held)
  · exact k.beginStroke held
  · exact k.extendStroke held
  · exact k.deferFire l t

theorem attendLane (h : CommitmentsKept s) (l : Lane) : CommitmentsKept (s.attendLane l) :=
  attend_keeps (P := CommitmentsKept) (fun s k => k.same (.disarm s l)) (fun _ _ k ht _ => k.arm ht)
    (fun _ k => k.fire l true) _ s h

theorem attendAll (h : CommitmentsKept s) : CommitmentsKept s.attendAll := h.forLanes (fun _ l k => k.attendLane l)

theorem recomputeLane (h : CommitmentsKept s) (l : Lane) : CommitmentsKept (s.recomputeLane l) := by
  unfold State.recomputeLane; split
  · exact h
  · split
    · exact ite_keeps ((((h.modChannel _ _).modTicket _ _).fire l true).attendLane l)
        ((h.modChannel _ _).modTicket _ _)
    all_goals exact h

theorem judgeDeferred (h : CommitmentsKept s) (l : Lane) : CommitmentsKept (s.judgeDeferred l) := by
  unfold State.judgeDeferred; split
  · rename_i a t _ armed
    obtain ⟨live, commitment⟩ := armedTicket?_held armed
    have miss := (h.missFire l (commitment ▸ live)).attendLane l
    have begins := (h.beginStroke live).attendLane l
    split
    · exact h
    · split
      · exact h
      · exact miss
      · exact ite_keeps miss begins
      · exact ite_keeps miss begins
  all_goals exact h

theorem recoverLane (h : CommitmentsKept s) (l : Lane) : CommitmentsKept (s.recoverLane l) :=
  have k : CommitmentsKept (s.driveRecover l) := h.modDrive _ _
  ite_keeps (k.judgeDeferred l) k

theorem takeTestEnd (h : CommitmentsKept s) (l : Lane) : CommitmentsKept (s.takeTestEnd l) := by
  unfold State.takeTestEnd; split
  · exact h.recoverLane l
  · exact h.modDrive _ _
  · exact h
  · exact h

/-- A stroke ends as a test stroke does, its tickets CONFIRMING by then (R125, R141). -/
theorem strokeEnds (h : CommitmentsKept s) (l : Lane) : CommitmentsKept (s.strokeEnds l) :=
  ((h.modChannel l (fun c => { c with strokeEnd := none })).endStroking l id).takeTestEnd l

theorem capStroke (h : CommitmentsKept s) (l : Lane) : CommitmentsKept (s.capStroke l) := by
  unfold State.capStroke; split
  · exact ((h.endStroking _ _).modChannel _ _).recoverLane l
  · exact h.recoverLane l
  · exact h.recoverLane l

theorem enterHold (h : CommitmentsKept s) (m : HeldFrom) : CommitmentsKept (s.enterHold m) :=
  have k : CommitmentsKept ((s.setMode (.hold m)).raise .holdEntered) := h.alike
  k.forLanes (fun _ l hu => ite_keeps (((hu.endStroking _ _).modChannel _ _).recoverLane l) hu)

theorem endTestStrokes (h : CommitmentsKept s) : CommitmentsKept s.endTestStrokes :=
  h.forLanes (fun _ _ k => ite_keeps (k.modDrive _ _) k)

/-! ### Resolution and the crowding rule -/

/-- The end of a walk is written into a live ticket whose commitment is not counted (R81, R82). -/
theorem of_writeWalk {k : Slot} (h : KeptBut k s) {held : Option Lane} (live : HeldAt s k held) (c : WareClass)
    (e : WalkEnd) : CommitmentsKept (s.writeWalk k c e) := by
  unfold State.writeWalk; split
  · exact h.giveLane live c _ _ _
  · exact of_sendToRunOff (h.modTicket _) _

theorem split (h : CommitmentsKept s) (k : Slot) : CommitmentsKept (s.split k) := by
  unfold State.split; split
  · exact h
  · rename_i t found
    obtain ⟨live, rfl⟩ := State.ticketAt?_some found
    exact ite_keeps (of_sendToRunOff (h.letGo (heldAt_of_mem live)) _) h

theorem judgePair (h : CommitmentsKept s) (passing : List Slot) (x y : Slot) :
    CommitmentsKept (s.judgePair passing x y) := by
  have joined : ∀ b, CommitmentsKept (s.writeJoined y b) := fun b =>
    h.modTicket _ _ (fun t => by split <;> rfl) (fun t _ _ => by split <;> rfl)
  unfold State.judgePair; split
  · exact ite_keeps h (ite_keeps (ite_keeps (joined true) (((joined false).split x).split y)) (joined false))
  all_goals exact h

theorem crowd (h : CommitmentsKept s) (k : Slot) (passing : List Slot) : CommitmentsKept (s.crowd k passing) := by
  unfold State.crowd; dsimp only
  split <;> split
  · exact (h.judgePair _ _ _).judgePair _ _ _
  · exact h.judgePair _ _ _
  · exact h.judgePair _ _ _
  · exact h

/-- A pending ticket holds no commitment before its resolution (R27, R76). -/
theorem resolve (h : CommitmentsKept s) (k : Slot) (c : Cause) : CommitmentsKept (s.resolve k c) := by
  unfold State.resolve; split
  · exact h
  · rename_i t found
    have streaked : SameCommitments s (s.streak c) := ite_keeps {} (ite_keeps {} {})
    have noted := SameCommitments.modTicket (s.streak c) k (fun u => { u with
      tag := none, windowEnd := none, outlet := ((s.streak c).startCase t c).outlet
      cls := some ((s.streak c).startCase t c).cls }) (fun _ => rfl) (fun _ _ _ => rfl)
    split
    · rename_i pending
      have held := noted.heldAt.mpr (streaked.heldAt.mpr (heldAt_of_ticketAt? found))
      rw [commitment_of_pending pending] at held
      exact ((of_writeWalk (((h.same streaked).same noted).free held) held _ _).crowd k []).attendAll
    · exact h

/-- A turn of the re-resolution pass: the commitment is released, and made again where the walk ends (R91, R92). -/
theorem reresolve (h : CommitmentsKept s) (l : Lane) (k : Slot) (passing : List Slot) :
    CommitmentsKept (s.reresolve l k passing) := by
  unfold State.reresolve; split
  · exact h
  · rename_i t found
    obtain ⟨live, rfl⟩ := State.ticketAt?_some found
    exact ite_keeps ((of_writeWalk (h.letGo (heldAt_of_mem live)) (heldAt_letGo live) _ _).crowd _ passing) h

theorem changeLaneState (h : CommitmentsKept s) (l : Lane) (new : LaneState) :
    CommitmentsKept (s.changeLaneState l new) := by
  have k : CommitmentsKept (s.modLane l (fun r => { r with state := new })) := h.modLane l _
  have passed : ∀ u : State, CommitmentsKept u → CommitmentsKept (u.reresolutionPass l) := fun u hu =>
    (passOver_keeps (P := CommitmentsKept) (fun _ _ _ hv => hv.reresolve l _ _) _ u hu).attendAll
  obtain ⟨u, hu, e⟩ := changeLaneState_eq s l new
  rw [e]
  obtain rfl | ⟨f, rfl⟩ := hu
  · exact ite_keeps (passed _ k) k
  · exact ite_keeps (passed _ k.alike) k.alike

theorem addFill (h : CommitmentsKept s) (l : Lane) : CommitmentsKept (s.addFill l) :=
  have k := h.modLane l (fun r => { r with fill := satInc 999 r.fill })
  ite_keeps (k.changeLaneState l _) k

theorem countFailure (h : CommitmentsKept s) (l : Lane) : CommitmentsKept (s.countFailure l) :=
  have k := h.modLane l (fun r => { r with failures := satInc 15 r.failures })
  ite_keeps (k.changeLaneState l _) k

theorem expireEnd (h : CommitmentsKept s) (k : Slot) : CommitmentsKept (s.expireEnd k) := by
  unfold State.expireEnd; split
  · exact h
  · split
    · exact (h.retire k _).addFill _
    · exact h.retire k _
    · exact h.retire k _
    all_goals exact h

/-- A fired ticket that turns DOUBT lets its commitment go (R109). -/
theorem closeConfirm (h : CommitmentsKept s) (k : Slot) : CommitmentsKept (s.closeConfirm k) := by
  unfold State.closeConfirm; split
  · exact h
  · rename_i t found
    obtain ⟨live, rfl⟩ := State.ticketAt?_some found
    split
    · exact h
    · rename_i l _
      have doubted := (h.releaseOf (heldAt_of_mem live)).written (fun t => { t with state := .doubt, closeCount := none })
      have bounded := (ite_keeps (c := t.joined = true) doubted (doubted.countFailure l)).storeBounds t.slot
      exact ite_keeps (bounded.expireEnd _) bounded

/-! ### Inputs and commands -/

/-- A new ticket holds no commitment (R17). -/
theorem openTicket (h : CommitmentsKept s) {k : Slot} (tag : Tag) (hk : s.freeSlot? = some k) :
    CommitmentsKept (s.openTicket k tag) := by
  obtain ⟨belt, -, -, lanes⟩ := TableSound.openTicket_tables s k tag
  refine ⟨?_, fun l => ?_⟩
  · have := h.slots
    unfold SlotsDistinct at this ⊢
    rw [belt, List.map_append, List.map_singleton, ← List.concat_eq_append, List.nodup_concat]
    refine ⟨fun hmem => ?_, this⟩
    obtain ⟨t, ht, e⟩ := List.mem_map.mp hmem
    exact TableSound.slot_ne_of_free hk t ht e
  · rw [State.lane, lanes, commitmentsAt, belt, List.countP_append]
    exact h.counts l

/-- A written configuration leaves the committed counts (R97). -/
theorem configureFrom (h : CommitmentsKept s) (n : Nat) (cs : List LaneConfig) :
    CommitmentsKept (s.configureFrom n cs) := by
  induction cs generalizing s n with
  | nil => exact h
  | cons c cs ih =>
    unfold State.configureFrom; split
    · exact ih (h.modLane _ _) _
    · exact ih h _

theorem writeLanes (h : CommitmentsKept s) (a : Byte) (rs : List LaneWrite) :
    CommitmentsKept (cmdWriteLanes a rs s).1 := by
  refine StepKept.answer_ite h (StepKept.answer_ite h (StepKept.answer_ite h ?_))
  split
  · exact h
  · exact h.configureFrom _ _

theorem softReset (h : CommitmentsKept s) : CommitmentsKept s.softReset := by
  have k : CommitmentsKept s.flush.clearFailures := h.flush.forLanes (fun _ l hu => hu.modLane l _)
  unfold State.softReset
  generalize s.flush.clearFailures = u at k ⊢
  exact k.alike

/-- The reply of a mode command leaves the state to which it is given. -/
theorem modeAnswer (h : CommitmentsKept s) (st : Status) : CommitmentsKept (s.modeAnswer st).1 := h

theorem modeCommand (h : CommitmentsKept s) (m : Byte) : CommitmentsKept (cmdSetMode m s).1 := by
  have run : CommitmentsKept s.enterRun.1 := by
    unfold State.enterRun; split
    · exact h
    · split
      · exact h.modeAnswer _
      · exact (h.endTestStrokes.setMode .run).modeAnswer _
  have setup : CommitmentsKept s.flushToSetup := h.flush.enterSetup
  unfold cmdSetMode; split
  case h_4 => exact setup.modeAnswer _
  case h_5 => exact run
  case h_7 => exact (h.setMode .run).modeAnswer _
  case h_10 => exact (h.setMode .drain).drainCheck.modeAnswer _
  all_goals exact h.modeAnswer _

theorem guardOpens (h : CommitmentsKept s) : CommitmentsKept s.guardOpens := by
  have k : CommitmentsKept { s with mc := { s.mc with guard := .opened } } := h.alike
  unfold State.guardOpens; split
  · exact h
  · dsimp only; split
    · exact k.enterHold _
    · exact k.enterHold _
    · exact k
    · exact k.endTestStrokes

theorem hold (h : CommitmentsKept s) : CommitmentsKept (cmdHold s).1 := by
  unfold cmdHold; split
  · exact h.modeAnswer _
  · exact (h.enterHold .run).modeAnswer _
  · exact (h.enterHold .drain).modeAnswer _
  · exact h.modeAnswer _

theorem setCapacity (h : CommitmentsKept s) (l : Lane) (n : Nat) : CommitmentsKept (s.setCapacity l n) := by
  have k := h.modLane l (fun r => { r with capacity := n })
  unfold State.setCapacity; dsimp only; split
  · exact ite_keeps (k.changeLaneState l _) k
  · exact ite_keeps (k.changeLaneState l _) k
  · exact k
  · exact k

theorem exchangeRack (h : CommitmentsKept s) (l : Lane) : CommitmentsKept (s.exchangeRack l) :=
  have k := h.modLane l (fun r => { r with fill := 0 })
  ite_keeps (k.changeLaneState l _) k

theorem testStroke (h : CommitmentsKept s) (l d : Byte) : CommitmentsKept (cmdTestStroke l d s).1 := by
  refine StepKept.answer_ite h ?_
  split
  · exact h
  · exact StepKept.answer_ite h (StepKept.answer_ite h (h.modDrive _ _))

/-- The commitment is released, and made again at the target lane when there is one (R38). -/
theorem applyRedirect (h : CommitmentsKept s) {t : Ticket} (live : t ∈ s.tt.belt) (d : Dest) :
    CommitmentsKept (s.applyRedirect t d) := by
  have released := (h.letGo (heldAt_of_mem live)).modTicket (fun u => { u with hops := 0, marks := {}, fireCount := none })
  have held := (SameCommitments.modTicket ((s.disarmOf t).releaseOf t) t.slot
    (fun u => { u with hops := 0, marks := {}, fireCount := none }) (fun _ => rfl) (fun _ _ _ => rfl)).heldAt.mpr
    (heldAt_letGo live)
  unfold State.applyRedirect
  cases d with
  | lane l => exact ((released.giveLane held _ l _ _).crowd _ _).attendAll
  | runOff =>
    refine CommitmentsKept.attendAll (CommitmentsKept.crowd ?_ _ _)
    dsimp only
    unfold State.redirectToRunOff; split
    · exact of_sendToRunOff released _
    · rename_i noLane
      rw [commitment_of_noLane noLane] at held
      exact (released.settled (fun _ => held.commitment released.slots)).modTicket _ _

theorem redirect (h : CommitmentsKept s) (a b c : Byte) : CommitmentsKept (cmdRedirect a b c s).1 := by
  refine StepKept.answer_ite h (StepKept.answer_ite h ?_)
  split
  · exact h
  · exact h
  · rename_i d t _ named
    refine StepKept.answer_ite h (StepKept.answer_ite h (StepKept.answer_ite h ?_))
    dsimp only
    exact h.applyRedirect (List.mem_of_find?_eq_some named) d

theorem pullTicket (h : CommitmentsKept s) (t : Ticket) : CommitmentsKept (s.pullTicket t) := by
  unfold State.pullTicket; split
  · exact (h.retire _ _).attendLane _
  · exact h.retire _ _

theorem elapse (h : CommitmentsKept s) (n : Nat) : CommitmentsKept (s.elapse n) := by
  unfold State.elapse; split
  · exact h.alike
  · exact CommitmentsKept.forLanes h.alike (fun _ _ k => k.modDrive _ _)

/-- What the part's own course changes keeps the committed counts. -/
theorem ownKept : OwnKept CommitmentsKept where
  alike h e := h.alike e.belt e.lanes
  elapse n h := h.elapse n
  record k f hf h := h.modTicket k f (fun t => (hf t).slot) (fun t _ _ => (hf t).commitment)
  clearEye h := h.alike
  resolve k c h := h.resolve k c
  recomputeLeads h := h.forLanes (fun _ l k => k.recomputeLane l)
  takeDueFire l h := (h.fire l false).attendLane l
  strokeEnds l h := h.strokeEnds l
  closeConfirm k h := h.closeConfirm k
  expireEnd k h := h.expireEnd k
  leavePull l _ h := ite_keeps (h.recoverLane l) (h.modDrive _ _)
  capStroke l _ h := h.capStroke l
  endRecovery l _ h := (h.modDrive l _).judgeDeferred l
  takeTestEnd l _ h := h.takeTestEnd l
  softReset h := h.softReset

/-- Every input and command keeps them too. -/
theorem stepKept : StepKept CommitmentsKept where
  toOwnKept := ownKept
  held s c x := ⟨List.nodup_nil, fun l => by simp [State.held, State.reset, State.lane, commitmentsAt, LaneRecord.reset]⟩
  released g _ h := h.alike
  openTicket tag _ hk h := h.openTicket tag hk
  retire k o h := h.retire k o
  counters l f hf h := h.modLane l f (fun r => by rw [hf r])
  addFill l h := h.addFill l
  guardOpens h := h.guardOpens
  guardCloses h := h.alike
  setMode m h := h.modeCommand m
  hold h := h.hold
  resume {s} h := by
    unfold cmdResume; split
    · rename_i m _ _
      exact ((ownKept.settle h).setMode m.mode).drainCheck.modeAnswer _
    all_goals exact h.modeAnswer _
  writeLanes a rs h := h.writeLanes a rs
  testStroke l d h := h.testStroke l d
  openLane l h := (h.modLane l (fun r => { r with failures := 0 })).changeLaneState l _
  closeLane l h := h.changeLaneState l _
  setCapacity l n _ h := h.setCapacity l n
  exchangeRack l h := h.exchangeRack l
  redirect a b c h := h.redirect a b c
  pullTicket t h := h.pullTicket t

end Sys2Proof.Safety.CommitmentsKept

open Sys2Proof.Machine Sys2Proof.Safety

/-- Settles O57: each operation that moves a commitment releases it at one lane and makes it at another, and every step is
built of such operations. -/
theorem stepKeepsCommitments : Obligations.StepKeepsCommitments := fun _ _ h ht => CommitmentsKept.stepKept.step h ht
end

section
/-! Sections 5.2 and 7.2: where a walk ends and over which lanes it has gone (R78 to R80, R82, R115). -/

namespace Sys2Proof.Machine

open Sys2Proof.Safety

variable {s : State} {t : Ticket} {c : WareClass} {r : Reason} {l : Lane}

/-! ### One lane of a walk (R80, steps 2 to 4) -/

/-- How far a walk has come that began at a lane and found each lane it has left ineligible. -/
structure WalkedTo (s : State) (t : Ticket) (c : WareClass) (start : Lane) (hops : Nat) (l : Lane) : Prop where
  here : linked s hops start = some l
  before : ∀ k, k < hops → ∃ j, linked s k start = some j ∧ s.eligible t c j = false

/-- How a walk may end: at an eligible lane with the start reason, or at an ineligible one, after six links or with no
link onward, with NO_LANE (R80). -/
inductive WalkOutcome (s : State) (t : Ticket) (c : WareClass) (start : Lane) (r : Reason) : WalkEnd → Prop where
  | taken {n : Nat} {l : Lane} : n ≤ 6 → WalkedTo s t c start n l → s.eligible t c l = true →
      WalkOutcome s t c start r ⟨some l, n, r⟩
  | noLane {n : Nat} {l : Lane} : n ≤ 6 → WalkedTo s t c start n l → s.eligible t c l = false →
      (n = 6 ∨ linked s (n + 1) start = none) → WalkOutcome s t c start r ⟨none, n, .noLane⟩

/-- One link more is the link of the lane reached. -/
theorem linked_succ (s : State) (n : Nat) (start : Lane) : linked s (n + 1) start =
    (linked s n start).bind (fun l => linked s 1 l) := by
  induction n generalizing start with
  | zero => rfl
  | succ n ih =>
    rw [linked, linked]
    cases (s.lane start).overflow with
    | runOff => rfl
    | lane m => exact ih m

theorem linked_one_of_lane {m : Lane} (link : (s.lane l).overflow = .lane m) : linked s 1 l = some m := by
  rw [linked, link]; rfl

theorem linked_one_of_runOff (link : (s.lane l).overflow = .runOff) : linked s 1 l = none := by
  rw [linked, link]

theorem WalkedTo.start (s : State) (t : Ticket) (c : WareClass) (l : Lane) : WalkedTo s t c l 0 l :=
  ⟨rfl, fun _ hk => absurd hk (Nat.not_lt_zero _)⟩

/-- The walk goes on along the link of an ineligible lane. -/
theorem WalkedTo.follow {start m : Lane} {n : Nat} (h : WalkedTo s t c start n l) (passed : s.eligible t c l = false)
    (link : (s.lane l).overflow = .lane m) : WalkedTo s t c start (n + 1) m where
  here := by rw [linked_succ, h.here, Option.bind_some, linked_one_of_lane link]
  before k hk := by
    rcases Nat.lt_succ_iff_lt_or_eq.mp hk with earlier | rfl
    · exact h.before k earlier
    · exact ⟨l, h.here, passed⟩

/-- Every lane a walk has come to without taking it is ineligible. -/
theorem WalkedTo.ineligible {start : Lane} {n : Nat} (h : WalkedTo s t c start n l) (passed : s.eligible t c l = false)
    (k : Nat) (hk : k ≤ n) : ∃ j, linked s k start = some j ∧ s.eligible t c j = false := by
  rcases Nat.lt_or_eq_of_le hk with earlier | rfl
  · exact h.before k earlier
  · exact ⟨l, h.here, passed⟩

/-! ### The walk (R80) -/

/-- A walk that has come to a lane with `left` links still allowed ends in one of the two ways. -/
theorem walkLane_outcome {start : Lane} (r : Reason) (left : Nat) (hl : left ≤ 6)
    (h : WalkedTo s t c start (6 - left) l) : WalkOutcome s t c start r (s.walkLane t c r left l) := by
  induction left generalizing l with
  | zero =>
    unfold State.walkLane; split
    · rename_i taken; exact .taken (Nat.le_refl 6) h taken
    · rename_i passed; exact .noLane (Nat.le_refl 6) h (Bool.eq_false_iff.mpr passed) (.inl rfl)
  | succ left ih =>
    unfold State.walkLane; split
    · rename_i taken; exact .taken (Nat.sub_le _ _) h taken
    · rename_i passed
      rw [Bool.not_eq_true] at passed
      split
      · rename_i link
        refine .noLane (Nat.sub_le _ _) h passed (.inr ?_)
        rw [linked_succ, h.here, Option.bind_some, linked_one_of_runOff link]
      · rename_i m link
        have next := h.follow passed link
        rw [show 6 - (left + 1) + 1 = 6 - left by omega] at next
        exact ih (by omega) next

theorem walk_outcome (s : State) (t : Ticket) (c : WareClass) (l : Lane) (r : Reason) :
    WalkOutcome s t c l r (s.walk t c (.lane l) r) :=
  walkLane_outcome r 6 (Nat.le_refl 6) (.start s t c l)

/-- A walk that takes a lane has come to it, found it eligible, and keeps the start reason. -/
theorem WalkOutcome.of_lane {start m : Lane} {e : WalkEnd} (h : WalkOutcome s t c start r e) (took : e.lane = some m) :
    WalkedTo s t c start e.hops m ∧ s.eligible t c m = true ∧ e.reason = r ∧ e.hops ≤ 6 := by
  cases h with
  | taken few walked eligible =>
    obtain rfl := Option.some.inj took
    exact ⟨walked, eligible, rfl, few⟩
  | noLane => cases took

/-- A walk that takes none has come to an ineligible lane from which it does not go on. -/
theorem WalkOutcome.of_none {start : Lane} {e : WalkEnd} (h : WalkOutcome s t c start r e) (took : e.lane = none) :
    (∃ m, WalkedTo s t c start e.hops m ∧ s.eligible t c m = false) ∧ e.reason = .noLane ∧ e.hops ≤ 6 ∧
      (e.hops = 6 ∨ linked s (e.hops + 1) start = none) := by
  cases h with
  | taken => cases took
  | noLane few walked passed ended => exact ⟨⟨_, walked, passed⟩, rfl, few, ended⟩

theorem walk_of_eligible (h : s.eligible t c l = true) : s.walk t c (.lane l) r = ⟨some l, 0, r⟩ := by
  rw [State.walk, State.walkLane, if_pos h]

/-! ### Eligibility (R78, R79, R115) -/

/-- The four conditions of R78, the present lead and the nominal point written out. -/
theorem eligible_iff (s : State) (t : Ticket) (c : WareClass) (l : Lane) : s.eligible t c l = true ↔
    (s.lane l).distance ≠ 0 ∧ (s.lane l).state = .opened ∧
    (s.lane l).fill + (s.lane l).committed < (s.lane l).capacity ∧
    (min ((16 * (s.lane l).latency + s.bcu.p8) / (2 * s.bcu.p8)) 255 : Int) + 8 <
      signedDiff s.bcu.count
        (t.induction + BitVec.ofNat 16 (s.lane l).distance + (s.classRecord c).strikeOffset.signExtend 16) := by
  have lead : (s.lead l : Int) = (min ((16 * (s.lane l).latency + s.bcu.p8) / (2 * s.bcu.p8)) 255 : Int) := by
    rw [State.lead, leadFor]; push_cast; rfl
  simp only [State.eligible, State.reachable, Bool.and_eq_true, bne_iff_ne, beq_iff_eq, decide_eq_true_eq, lead, and_assoc]
  rfl

end Sys2Proof.Machine

open Sys2Proof.Machine Sys2Proof.Safety

/-- Settles O19: every clause is read off the two ways in which a walk ends. -/
theorem walkEndsAtEligibleLane : Obligations.WalkEndsAtEligibleLane := by
  intro s t c r
  refine ⟨fun start l took => ?_, fun l took => ?_, fun l m took => ?_, fun l took => ?_, rfl,
    fun l => walk_of_eligible, eligible_iff s t c⟩
  · cases start with
    | runOff => cases took
    | lane start => exact ((walk_outcome s t c start r).of_lane took).2
  · obtain ⟨⟨_, walked, passed⟩, reason, few, -⟩ := (walk_outcome s t c l r).of_none took
    obtain ⟨_, here, start⟩ := walked.ineligible passed 0 (Nat.zero_le _)
    exact ⟨Option.some.inj here ▸ start, reason, few⟩
  · obtain ⟨walked, -⟩ := (walk_outcome s t c l r).of_lane took
    exact ⟨walked.here, walked.before⟩
  · obtain ⟨⟨_, walked, passed⟩, -, -, ended⟩ := (walk_outcome s t c l r).of_none took
    exact ⟨walked.ineligible passed, ended⟩
end

section
/-! What diverts, walks, splits and re-resolution passes can do to the belt list, the lanes' commitments and the channels,
move by move (R76 to R93, R117 to R124). Every such operation is a chain of these moves, shown once; what each move keeps,
the chain keeps. -/

namespace Sys2Proof.Machine

open Sys2Proof.Safety

/-! ### The moves -/

/-- A ticket whose record these operations may write over or drop: not one of a confirm list, and not in DOUBT. -/
def Ticket.loose (t : Ticket) : Bool :=
  match t.state with
  | .pendingRead => true
  | .routed => true
  | .armed => true
  | .runningOff => true
  | .stroking => false
  | .confirming => false
  | .doubt => false

/-- What all live tickets in a slot are, where each slot holds at most one. -/
def AtSlot (s : State) (k : Slot) (p : Ticket → Prop) : Prop := SlotsDistinct s → ∀ v ∈ s.tt.belt, v.slot = k → p v

/-- A loose ticket's record written anew: it joins the route queue of an OPEN lane alone, and a confirm list only by a fire
at the lane where it waits. -/
structure Rewritten (strokes : Prop) (s : State) (v w : Ticket) : Prop where
  loose : v.loose = true
  queued : ∀ m, w.queuedAt m = true → v.queuedAt m = true ∨ (s.lane m).state = .opened
  fired : ∀ m, w.firedAt m = true → strokes ∧ v.queuedAt m = true

/-- One move; fires move tickets too where `strokes` holds. -/
inductive Move (strokes : Prop) : State → State → Prop
  | apart {s t : State} : t.lanes = s.lanes → t.tt.belt = s.tt.belt →
      (∀ m, (t.channel m).armed = (s.channel m).armed) → Move strokes s t
  | commit (s : State) (m : Lane) : Move strokes s (s.commit m)
  | release (s : State) (m : Lane) : Move strokes s (s.release m)
  | disarm (s : State) (m : Lane) : Move strokes s (s.disarm m)
  | channel (s : State) (m : Lane) (f : Channel → Channel) :
      (∀ a, (f (s.channel m)).armed = some a → (∃ b, (s.channel m).armed = some b ∧ b.slot = a.slot) ∨
        AtSlot s a.slot (fun v => v.loose = true)) → Move strokes s (s.modChannel m f)
  | write (s : State) (k : Slot) (f : Ticket → Ticket) : (∀ v, (f v).slot = v.slot) →
      AtSlot s k (fun v => f v = v ∨ Rewritten strokes s v (f v)) → Move strokes s (s.modTicket k f)
  | drop (s : State) (k : Slot) : AtSlot s k (fun v => v.loose = true) →
      Move strokes s { s with tt := { s.tt with belt := without s k } }

/-- A chain of moves. -/
abbrev Moves (strokes : Prop) : State → State → Prop := Relation.ReflTransGen (Move strokes)

variable {strokes : Prop} {s t u : State} {k : Slot} {l : Lane}

theorem loose_of_waiting {v : Ticket} (h : v.waiting = true) : v.loose = true := by
  have waits : v.state = .routed ∨ v.state = .armed := by simpa [Ticket.waiting] using h
  obtain e | e := waits <;> simp [Ticket.loose, e]

theorem loose_of_queuedAt {v : Ticket} (h : v.queuedAt l = true) : v.loose = true :=
  loose_of_waiting (Bool.and_eq_true_iff.mp h).2

theorem not_firedAt_of_loose {v : Ticket} (h : v.loose = true) (m : Lane) : v.firedAt m = false := by
  unfold Ticket.loose at h
  unfold Ticket.firedAt
  cases hs : v.state <;> simp_all

/-! ### What a slot's ticket is -/

namespace AtSlot

variable {p q : Ticket → Prop}

theorem imp (h : AtSlot s k p) (hpq : ∀ v, p v → q v) : AtSlot s k q := fun hd v hv hk => hpq v (h hd v hv hk)

theorem same (h : AtSlot s k p) (hb : t.tt.belt = s.tt.belt := by rfl) : AtSlot t k p := by
  unfold AtSlot SlotsDistinct at h ⊢; rw [hb]; exact h

/-- The ticket found in the slot is the one there. -/
theorem of_ticketAt? {v : Ticket} (hv : s.ticketAt? k = some v) (h : p v) : AtSlot s k p := by
  intro hd w hw hk
  have found := State.ticketAt?_of_mem hd hw
  rw [hk, hv] at found
  exact Option.some.inj found ▸ h

theorem of_mem {v : Ticket} (hv : v ∈ s.tt.belt) (h : p v) : AtSlot s v.slot p := by
  intro hd w hw hk
  have found := State.ticketAt?_of_mem hd hw
  rw [hk, State.ticketAt?_of_mem hd hv] at found
  exact Option.some.inj found ▸ h

/-- What a change of a record keeps of a ticket, or makes of the ticket in its slot. -/
theorem modTicket (h : AtSlot s k p) (j : Slot) (f : Ticket → Ticket) (hs : ∀ v, (f v).slot = v.slot)
    (hf : ∀ v, p v → q (f v)) (hk : ∀ v, k ≠ j → p v → q v) : AtSlot (s.modTicket j f) k q := by
  intro hd v hv at_k
  have distinct : SlotsDistinct s := by
    unfold SlotsDistinct at hd ⊢; rwa [State.slots_modTicket s j f hs] at hd
  rw [State.belt_modTicket] at hv
  obtain ⟨x, hx, rfl⟩ := List.mem_map.mp hv
  by_cases e : x.slot = j
  · rw [if_pos e] at at_k ⊢
    exact hf x (h distinct x hx ((hs x).symm.trans at_k))
  · rw [if_neg e] at at_k ⊢
    exact hk x (fun e' => e (at_k.trans e')) (h distinct x hx at_k)

/-- A record written so, whatever it was. -/
theorem written (s : State) (k : Slot) (f : Ticket → Ticket) (hs : ∀ v, (f v).slot = v.slot := by intro _; rfl)
    (hf : ∀ v, p (f v) := by intro _; rfl) : AtSlot (s.modTicket k f) k p :=
  (show AtSlot s k (fun _ => True) from fun _ _ _ _ => trivial).modTicket k f hs (fun v _ => hf v)
    (fun _ hne => absurd rfl hne)

/-- Disarming changes a ticket's fire count, and ARMED to ROUTED. -/
theorem disarmOf (h : AtSlot s k p) (v : Ticket)
    (hp : ∀ x, p x → p { x with fireCount := none, state := if x.state = .armed then .routed else x.state }) :
    AtSlot (s.disarmOf v) k p := by
  obtain e | ⟨m, e⟩ := disarmOf_cases s v <;> rw [e]
  · exact h
  · exact (h.same : AtSlot (s.modChannel m _) k p).modTicket v.slot _ (fun _ => rfl) hp (fun _ _ hx => hx)

end AtSlot

theorem loose_disarmed {v : Ticket} (h : v.loose = true) : Ticket.loose { v with
    fireCount := none, state := if v.state = .armed then .routed else v.state } = true := by
  unfold Ticket.loose at *
  cases hs : v.state <;> simp_all

namespace Moves

/-! ### Tickets -/

theorem apart (hl : t.lanes = s.lanes := by rfl) (hb : t.tt.belt = s.tt.belt := by rfl)
    (hc : ∀ m, (t.channel m).armed = (s.channel m).armed := by exact fun _ => rfl) : Moves strokes s t :=
  .single (.apart hl hb hc)

theorem write (s : State) (k : Slot) (f : Ticket → Ticket) (hs : ∀ v, (f v).slot = v.slot := by intro _; rfl)
    (hf : AtSlot s k (fun v => f v = v ∨ Rewritten strokes s v (f v))) : Moves strokes s (s.modTicket k f) :=
  .single (.write s k f hs hf)

/-- A loose ticket is written as one that waits nowhere. -/
theorem writeOff (h : AtSlot s k (fun v => v.loose = true)) (f : Ticket → Ticket)
    (hs : ∀ v, (f v).slot = v.slot := by intro _; rfl)
    (hq : ∀ v m, (f v).queuedAt m = true → v.queuedAt m = true := by exact fun _ _ => id)
    (hf : ∀ v m, (f v).firedAt m = true → v.firedAt m = true := by exact fun _ _ => id) : Moves strokes s (s.modTicket k f) := by
  refine write s k f hs (h.imp (fun v hv => .inr ⟨hv, fun m hm => .inl (hq v m hm), fun m hm => ?_⟩))
  exact absurd (hf v m hm) (ne_true_of_eq_false (not_firedAt_of_loose hv m))

theorem modChannel (s : State) (m : Lane) (f : Channel → Channel)
    (hf : (f (s.channel m)).armed = (s.channel m).armed) : Moves strokes s (s.modChannel m f) := by
  refine apart rfl rfl (fun j => ?_)
  rw [State.channel_modChannel]; split
  · rename_i e; rw [e]; exact hf
  · rfl

theorem freeChannel (s : State) (m : Lane) : Moves strokes s (s.modChannel m (fun c => { c with armed := none })) :=
  .single (.channel s m _ nofun)

theorem disarmOf (s : State) (v : Ticket) : Moves strokes s (s.disarmOf v) := by
  unfold State.disarmOf; split
  · split
    · exact .single (.disarm s _)
    · exact .refl
  · exact .refl

theorem releaseOf (s : State) (v : Ticket) : Moves strokes s (s.releaseOf v) := by
  unfold State.releaseOf; split
  · exact .single (.release s _)
  · exact .refl

theorem forLanes {f : State → Lane → State} (h : ∀ s l, Moves strokes s (f s l)) (s : State) :
    Moves strokes s (s.forLanes f) :=
  State.forLanes_keeps (P := Moves strokes s) s .refl (fun _ l hu => hu.trans (h _ l))

theorem countRunOff (s : State) (r : Reason) : Moves strokes s (s.countRunOff r) := by
  unfold State.countRunOff; split
  · exact apart
  · exact .refl

theorem remove (v : Ticket) (o : TicketOutcome) (h : AtSlot s v.slot (fun v => v.loose = true)) :
    Moves strokes s (s.remove v o) := by
  have letGo := (h.disarmOf v (fun _ => loose_disarmed)).same (t := (s.disarmOf v).releaseOf v) (by rw [State.releaseOf_tt])
  have dropped := Relation.ReflTransGen.single (Move.drop (strokes := strokes) _ _ letGo)
  exact (((disarmOf s v).trans (releaseOf _ v)).trans dropped).trans apart

theorem drainCheck (s : State) : Moves strokes s s.drainCheck := by
  unfold State.drainCheck; split
  · refine (apart : Moves strokes s (s.setMode .setup)).trans (forLanes (fun s l => ?_) _)
    split
    · exact (modChannel s l (fun c => { c with strokeEnd := none }) rfl).trans apart
    · exact .refl
  · exact .refl

theorem retire (o : TicketOutcome) (h : AtSlot s k (fun v => v.loose = true)) : Moves strokes s (s.retire k o) := by
  unfold State.retire; split
  · exact .refl
  · rename_i v hv
    exact (remove v o ((State.ticketAt?_some hv).2 ▸ h)).trans (drainCheck _)

theorem enterRunningOff (h : AtSlot s k (fun v => v.loose = true)) : Moves strokes s (s.enterRunningOff k) := by
  have stored : Moves strokes s (s.storeBounds k) := writeOff h _
  unfold State.enterRunningOff
  dsimp only; split
  · exact stored.trans (retire _ (h.modTicket k _ (fun _ => rfl) (fun _ => id) (fun _ _ => id)))
  · exact stored

/-- A loose ticket is sent to run-off (R82). -/
theorem sendToRunOff (r : Reason) (h : AtSlot s k (fun v => v.loose = true)) : Moves strokes s (s.sendToRunOff k r) := by
  have off : Moves strokes s (s.modTicket k (fun t => { t with
      state := .runningOff, dest := some .runOff, reason := some r, joined := false, nominal := none, span := none })) :=
    writeOff h _ (hq := fun v m hm => by simp [Ticket.queuedAt] at hm)
      (hf := fun v m hm => by simp [Ticket.firedAt] at hm)
  refine (off.trans (countRunOff _ r)).trans (enterRunningOff ?_)
  exact AtSlot.same (AtSlot.written s k _) (belt_countRunOff _ r)

/-! ### Diverts -/

/-- A ticket of the route queue is armed (R117). -/
theorem arm {v : Ticket} (hv : v ∈ s.routeQueue l) : Moves strokes s (s.arm l v) := by
  obtain ⟨live, queued⟩ := mem_routeQueue.mp hv
  have waits : AtSlot s v.slot (fun w => w.queuedAt l = true) := .of_mem live queued
  refine (Relation.ReflTransGen.single (.channel s l _ (fun a ha => .inr ?_))).trans
    (write _ v.slot _ (hf := waits.same.imp (fun w hw => .inr ⟨loose_of_queuedAt hw, fun m hm => .inl ?_, fun m hm => ?_⟩)))
  · exact queuedAt_iff.mpr ⟨(queuedAt_iff.mp hm).1, (queuedAt_iff.mp hw).2⟩
  · simp [Ticket.firedAt] at hm
  · obtain rfl := Option.some.inj ha
    exact waits.imp (fun _ => loose_of_queuedAt)

variable {v : Ticket}

/-- What the armed ticket's record is. -/
theorem waits_of_armed (h : s.armedTicket? l = some v) : AtSlot s v.slot (fun w => w.queuedAt l = true) := by
  obtain ⟨a, ha, hs⟩ := slot_of_armedTicket? h
  unfold State.armedTicket? at h
  rw [ha] at h
  dsimp only at h
  split at h
  · cases h
  · rename_i x hx
    split at h
    · rename_i hw
      obtain rfl := Option.some.inj h
      exact .of_ticketAt? (hs ▸ hx) (queuedAt_iff.mpr ⟨hw.2, .inr hw.1⟩)
    · cases h

/-- The fire of a ticket that waits at the lane is taken: it joins the lane's confirm list (R120). -/
theorem takeFire (h : AtSlot s v.slot (fun w => w.queuedAt l = true)) : Moves True s (s.takeFire l v) := by
  refine (freeChannel s l).trans (write _ v.slot _
    (hf := h.same.imp (fun w hw => .inr ⟨loose_of_queuedAt hw, fun m hm => ?_, fun m hm => ?_⟩)))
  · simp [Ticket.queuedAt] at hm
  have dest : Ticket.laneDest w = some m := by
    have := (Bool.and_eq_true_iff.mp hm).1
    exact eq_of_beq this
  exact ⟨trivial, queuedAt_iff.mpr ⟨dest, (queuedAt_iff.mp hw).2⟩⟩

theorem beginStroke (h : AtSlot s v.slot (fun w => w.queuedAt l = true)) : Moves True s (s.beginStroke l v) :=
  ((takeFire h).trans (modChannel _ l (fun c => { c with strokeEnd := some (s.endCount v) }) rfl)).trans apart

theorem extendStroke (h : AtSlot s v.slot (fun w => w.queuedAt l = true)) : Moves True s (s.extendStroke l v) := by
  unfold State.extendStroke; split
  · exact (takeFire h).trans (modChannel _ l _ rfl)
  · exact ((takeFire h).trans (modChannel _ l _ rfl)).trans apart

theorem deferFire (h : AtSlot s v.slot (fun w => w.queuedAt l = true)) : Moves True s (s.deferFire l v) := by
  refine .tail (writeOff (h.imp fun _ => loose_of_queuedAt) _) (.channel _ l _ (fun a ha => .inl ?_))
  obtain ⟨b, hb, rfl⟩ := Option.map_eq_some_iff.mp ha
  exact ⟨b, hb, rfl⟩

theorem missFire (h : AtSlot s v.slot (fun w => w.queuedAt l = true)) : Moves strokes s (s.missFire l v) := by
  refine ((freeChannel s l).trans (releaseOf _ v)).trans (sendToRunOff _ ?_)
  exact (h.imp fun _ => loose_of_queuedAt).same (by rw [State.releaseOf_tt]; rfl)

theorem fire (s : State) (l : Lane) (late : Bool) : Moves True s (s.fire l late) := by
  obtain e | ⟨v, u, armed, hu, hc⟩ := fire_cases s l late
  · rw [e]
  have waits := waits_of_armed armed
  have marked : Moves True s u ∧ AtSlot u v.slot (fun w => w.queuedAt l = true) := by
    subst hu; split
    · exact ⟨writeOff (waits.imp fun _ => loose_of_queuedAt) _,
        waits.modTicket v.slot _ (fun _ => rfl) (fun _ => id) (fun _ _ => id)⟩
    · exact ⟨.refl, waits⟩
  obtain ⟨come, waiting⟩ := marked
  obtain ⟨-, e⟩ | ⟨-, e⟩ | ⟨-, ⟨-, e⟩ | ⟨-, e⟩ | ⟨-, e⟩⟩ := hc <;> rw [e]
  · exact come
  · exact come.trans (missFire waiting)
  · exact come.trans (beginStroke waiting)
  · exact come.trans (extendStroke waiting)
  · exact come.trans (deferFire waiting)

theorem attendLane (s : State) (l : Lane) : Moves True s (s.attendLane l) :=
  attend_keeps (P := Moves True s) (fun _ hu => hu.tail (.disarm _ l)) (fun _ _ hu hv _ => hu.trans (arm hv))
    (fun _ hu => hu.trans (fire _ l true)) _ s .refl

theorem attendAll (s : State) : Moves True s s.attendAll := forLanes attendLane s

/-! ### Walks, splits and the pass -/

/-- The end of a walk is written into a loose ticket (R81, R82). -/
theorem writeWalk (h : AtSlot s k (fun v => v.loose = true)) (c : WareClass) {e : WalkEnd}
    (he : ∀ m, e.lane = some m → (s.lane m).state = .opened) : Moves strokes s (s.writeWalk k c e) := by
  unfold State.writeWalk; split
  · rename_i m hm
    refine (Relation.ReflTransGen.single (.commit s m)).trans
      (write _ k _ (hf := h.same.imp (fun v hv => .inr ⟨hv, fun j hj => .inr ?_, fun j hj => ?_⟩)))
    · obtain rfl : m = j := by simpa [Ticket.queuedAt, Ticket.laneDest] using hj
      exact (congrArg LaneRecord.state (tableMod_get_self s.lanes m _)).trans (he m hm)
    · simp [Ticket.firedAt] at hj
  · have noted : Moves strokes s (s.modTicket k (fun t => { t with hops := e.hops })) := writeOff h _
    exact noted.trans (sendToRunOff _ (h.modTicket k _ (fun _ => rfl) (fun _ => id) (fun _ _ => id)))

theorem writeJoined (s : State) (k : Slot) (b : Bool) : Moves strokes s (s.writeJoined k b) := by
  refine write s k _ (fun v => by split <;> rfl) (fun _ v _ _ => ?_)
  by_cases hw : v.waiting = true
  · have loose := loose_of_waiting hw
    simp only [if_pos hw]
    exact .inr ⟨loose, fun m hm => .inl hm, fun m hm =>
      absurd (show v.firedAt m = true from hm) (ne_true_of_eq_false (not_firedAt_of_loose loose m))⟩
  · exact .inl (if_neg hw)

theorem split (s : State) (k : Slot) : Moves strokes s (s.split k) := by
  unfold State.split; split
  · exact .refl
  · rename_i v hv
    split
    · rename_i hs
      have there : AtSlot s k (fun v => v.loose = true) :=
        .of_ticketAt? hv (loose_of_waiting (Bool.and_eq_true_iff.mp hs).2)
      exact ((disarmOf s v).trans (releaseOf _ v)).trans
        (sendToRunOff _ ((there.disarmOf v (fun _ => loose_disarmed)).same (by rw [State.releaseOf_tt])))
    · exact .refl

theorem judgePair (s : State) (passing : List Slot) (x y : Slot) : Moves strokes s (s.judgePair passing x y) := by
  unfold State.judgePair; split
  · refine ite_keeps .refl (ite_keeps (ite_keeps (writeJoined s y true) ?_) (writeJoined s y false))
    exact ((writeJoined s y false).trans (split _ x)).trans (split _ y)
  all_goals exact .refl

theorem crowd (s : State) (k : Slot) (passing : List Slot) : Moves strokes s (s.crowd k passing) := by
  obtain ⟨w, hw, he⟩ := crowd_cases s k passing
  have before : Moves strokes s w := by
    obtain rfl | ⟨a, -, rfl⟩ := hw
    · exact .refl
    · exact judgePair _ _ _ _
  obtain e | ⟨b, -, e⟩ := he <;> rw [e]
  · exact before
  · exact before.trans (judgePair _ _ _ _)

end Moves
end Sys2Proof.Machine
end

section
/-! What a chain of moves keeps: a lane record but for its committed count, the tickets that wait at a lane that is not OPEN,
a ticket that is not loose, and a confirm list. A re-resolution pass leaves its lane's route queue empty (R91). -/

namespace Sys2Proof.Machine

open Sys2Proof.Safety

variable {strokes : Prop} {s t u : State} {k : Slot} {l : Lane}

/-- What every move keeps, a chain of moves keeps. -/
theorem Moves.keeps {P : State → Prop} (h : Moves strokes s t) (hs : P s)
    (step : ∀ {u v : State}, Move strokes u v → P u → P v) : P t := by
  induction h with
  | refl => exact hs
  | tail _ move ih => exact step move ih

theorem Move.slots (h : Move strokes s t) (hd : SlotsDistinct s) : SlotsDistinct t := by
  cases h with
  | apart _ hb => unfold SlotsDistinct at hd ⊢; rwa [hb]
  | commit => exact hd
  | release => exact hd
  | disarm m => exact (Steady.disarm s m).distinct hd
  | channel => exact hd
  | write k f hf => exact (Steady.modTicket s k f hf).distinct hd
  | drop k => exact (List.filter_sublist.map Ticket.slot).nodup hd

/-! ### Lane records -/

/-- The lane records as they were but for their committed counts. -/
def CommittedOnly (s t : State) : Prop := ∀ l, t.lane l = { s.lane l with committed := (t.lane l).committed }

namespace CommittedOnly

theorem same (h : t.lanes = s.lanes := by rfl) : CommittedOnly s t := fun l => by rw [State.lane, h]; rfl

theorem trans (h : CommittedOnly s t) (k : CommittedOnly t u) : CommittedOnly s u := fun l => by rw [k l, h l]

theorem modLane (m : Lane) (f : LaneRecord → LaneRecord)
    (hf : ∀ r, f r = { r with committed := (f r).committed } := by intro _; rfl) : CommittedOnly s (s.modLane m f) := by
  intro l
  rw [State.lane_modLane]; split
  · rename_i e; rw [e]; exact hf _
  · rfl

theorem of_moves (h : Moves strokes s t) : CommittedOnly s t := by
  refine h.keeps (P := CommittedOnly s) same (fun move hu => hu.trans ?_)
  cases move with
  | apart hl => exact same hl
  | commit m => exact modLane m _
  | release m => exact modLane m _
  | disarm m => exact same (State.disarm_lanes _ m)
  | channel => exact same
  | write => exact same
  | drop => exact same

end CommittedOnly

/-! ### The tickets that wait at a lane -/

/-- The lane is not OPEN, and the tickets of its route queue stand in such slots. -/
structure WaitsWithin (l : Lane) (p : Slot → Prop) (s : State) : Prop where
  slots : SlotsDistinct s
  shut : (s.lane l).state ≠ .opened
  queue : ∀ v ∈ s.tt.belt, v.queuedAt l = true → p v.slot

namespace WaitsWithin

variable {p : Slot → Prop}

/-- A record changed so that its ticket does not join the queue. -/
theorem record (h : WaitsWithin l p s) (j : Slot) (f : Ticket → Ticket)
    (hs : ∀ v, (f v).slot = v.slot := by intro _; rfl)
    (hq : ∀ x ∈ s.tt.belt, x.slot = j → (f x).queuedAt l = true → x.queuedAt l = true := by exact fun _ _ _ => id) :
    WaitsWithin l p (s.modTicket j f) := by
  refine ⟨(Steady.modTicket s j f hs).distinct h.slots, h.shut, fun v hv hqv => ?_⟩
  obtain ⟨x, hx, rfl⟩ := List.mem_map.mp hv
  by_cases e : x.slot = j
  · rw [if_pos e] at hqv ⊢
    rw [hs]; exact h.queue x hx (hq x hx e hqv)
  · rw [if_neg e] at hqv ⊢
    exact h.queue x hx hqv

theorem move (h : WaitsWithin l p s) (step : Move strokes s t) : WaitsWithin l p t := by
  have shut : (t.lane l).state ≠ .opened := by
    rw [CommittedOnly.of_moves (.single step) l]; exact h.shut
  cases step with
  | apart _ hb => exact ⟨by have := h.slots; unfold SlotsDistinct at this ⊢; rwa [hb], shut, fun v hv => h.queue v (hb ▸ hv)⟩
  | commit => exact ⟨h.slots, shut, h.queue⟩
  | release => exact ⟨h.slots, shut, h.queue⟩
  | disarm m =>
    unfold State.disarm; split
    · exact h
    · have freed : WaitsWithin l p (s.modChannel m (fun c => { c with armed := none })) := ⟨h.slots, h.shut, h.queue⟩
      refine freed.record _ _ (fun _ => rfl) (fun x _ _ hx => ?_)
      obtain ⟨dest, waits⟩ := queuedAt_iff.mp hx
      refine queuedAt_iff.mpr ⟨dest, ?_⟩
      by_cases e : x.state = .armed
      · exact .inr e
      · simpa [e] using waits
  | channel => exact ⟨h.slots, shut, h.queue⟩
  | write j f hs hf =>
    refine h.record j f hs (fun x hx e hfx => ?_)
    obtain same | written := hf h.slots x hx e
    · exact same ▸ hfx
    · exact (written.queued l hfx).resolve_right h.shut
  | drop j =>
    exact ⟨(Move.drop (strokes := strokes) s j ‹_›).slots h.slots, shut,
      fun v hv => h.queue v (List.mem_of_mem_filter hv)⟩

theorem moves (h : WaitsWithin l p s) (step : Moves strokes s t) : WaitsWithin l p t :=
  step.keeps h (fun m hu => hu.move m)

theorem queue_empty (h : WaitsWithin l (fun _ => False) s) : s.routeQueue l = [] :=
  List.filter_eq_nil_iff.mpr (fun v hv hq => h.queue v hv hq)

/-- The ticket in a slot is written as one that does not wait at the lane. -/
theorem leave (h : WaitsWithin l (fun j => j = k ∨ p j) s) (f : Ticket → Ticket)
    (hs : ∀ v, (f v).slot = v.slot := by intro _; rfl) (hf : ∀ v, (f v).queuedAt l = false) :
    WaitsWithin l p (s.modTicket k f) := by
  refine ⟨(Steady.modTicket s k f hs).distinct h.slots, h.shut, fun v hv hq => ?_⟩
  obtain ⟨x, hx, rfl⟩ := List.mem_map.mp hv
  by_cases e : x.slot = k
  · rw [if_pos e, hf] at hq; cases hq
  · rw [if_neg e] at hq ⊢
    exact (h.queue x hx hq).resolve_left e

/-- A walk's end takes the ticket away: to an OPEN lane or to run-off (R81, R82). -/
theorem writeWalk (h : WaitsWithin l (fun j => j = k ∨ p j) s) (c : WareClass) {e : WalkEnd}
    (he : ∀ m, e.lane = some m → (s.lane m).state = .opened) : WaitsWithin l p (s.writeWalk k c e) := by
  unfold State.writeWalk; split
  · rename_i m hm
    refine (h.move (strokes := False) (.commit s m)).leave _ (hf := fun v => ?_)
    have other : m ≠ l := fun e => h.shut (e ▸ he m hm)
    simp [Ticket.queuedAt, Ticket.laneDest, other]
  · have noted : WaitsWithin l (fun j => j = k ∨ p j) (s.modTicket k (fun t => { t with hops := e.hops })) := h.record k _
    have off := noted.leave (fun t => { t with
      state := .runningOff, dest := some .runOff, reason := some e.reason, joined := false, nominal := none
      span := none }) (hf := fun v => by simp [Ticket.queuedAt])
    exact (off.moves (Moves.countRunOff (strokes := False) _ _)).moves
      (Moves.enterRunningOff (strokes := False) (AtSlot.same (AtSlot.written _ k _) (belt_countRunOff _ _)))

theorem reresolve {ks : List Slot} (h : WaitsWithin l (· ∈ k :: ks) s) (passing : List Slot) :
    WaitsWithin l (· ∈ ks) (s.reresolve l k passing) := by
  have waits : WaitsWithin l (fun j => j = k ∨ j ∈ ks) s := ⟨h.slots, h.shut, fun v hv hq => List.mem_cons.mp (h.queue v hv hq)⟩
  have gone : (∀ v, s.ticketAt? k = some v → v.queuedAt l ≠ true) → WaitsWithin l (· ∈ ks) s := fun hn =>
    ⟨h.slots, h.shut, fun v hv hq => (waits.queue v hv hq).resolve_left
      (fun e => hn v (e ▸ State.ticketAt?_of_mem h.slots hv) hq)⟩
  unfold State.reresolve; split
  · rename_i hn; exact gone (fun v hv => absurd (hn ▸ hv) nofun)
  · rename_i v hv
    split
    · have released := (waits.moves (Moves.disarmOf (strokes := False) s v)).moves (Moves.releaseOf (strokes := False) _ v)
      exact (released.writeWalk _ (fun m hm => state_of_eligible (rewalk_eligible hm))).moves
        (Moves.crowd (strokes := False) _ _ _)
    · rename_i hq
      exact gone (fun w hw => Option.some.inj (hv.symm.trans hw) ▸ hq)

theorem passOver {ks : List Slot} (h : WaitsWithin l (· ∈ ks) s) : WaitsWithin l (fun _ => False) (s.passOver l ks) := by
  induction ks generalizing s with
  | nil => exact ⟨h.slots, h.shut, fun v hv hq => absurd (h.queue v hv hq) List.not_mem_nil⟩
  | cons k ks ih => exact ih (h.reresolve ks)

/-- Before a pass of a lane that is not OPEN, the tickets of its queue wait there. -/
theorem start (hd : SlotsDistinct s) (hl : (s.lane l).state ≠ .opened) :
    WaitsWithin l (· ∈ (s.routeQueue l).map Ticket.slot) s :=
  ⟨hd, hl, fun _ hv hq => List.mem_map_of_mem (mem_routeQueue.mpr ⟨hv, hq⟩)⟩

end WaitsWithin

/-! ### The pass (R91) -/

namespace Moves

theorem reresolve (s : State) (l : Lane) (k : Slot) (passing : List Slot) :
    Moves strokes s (s.reresolve l k passing) := by
  unfold State.reresolve; split
  · exact .refl
  · rename_i v hv
    split
    · rename_i hq
      have there : AtSlot s k (fun v => v.loose = true) := .of_ticketAt? hv (loose_of_queuedAt hq)
      have freed : AtSlot ((s.disarmOf v).releaseOf v) k (fun v => v.loose = true) :=
        (there.disarmOf v (fun _ => loose_disarmed)).same (by rw [State.releaseOf_tt])
      exact (((disarmOf s v).trans (releaseOf _ v)).trans
        (writeWalk freed _ (fun m hm => state_of_eligible (rewalk_eligible hm)))).trans (crowd _ _ _)
    · exact .refl

theorem passOver (s : State) (l : Lane) (ks : List Slot) : Moves strokes s (s.passOver l ks) :=
  passOver_keeps (P := Moves strokes s) (fun _ _ _ hu => hu.trans (reresolve _ _ _ _)) ks s .refl

theorem reresolutionPass (s : State) (l : Lane) : Moves True s (s.reresolutionPass l) :=
  (passOver s l _).trans (attendAll _)

end Moves

theorem routeQueue_reresolutionPass (hd : SlotsDistinct s) (hl : (s.lane l).state ≠ .opened) :
    (s.reresolutionPass l).routeQueue l = [] :=
  ((WaitsWithin.start hd hl).passOver.moves (Moves.attendAll _)).queue_empty

/-! ### A ticket that is not loose -/

/-- A ticket's record but for its fire count, which stands too while no channel arms the ticket. -/
structure Rests (x : Ticket) (free : Prop) (s : State) : Prop where
  slots : SlotsDistinct s
  record : ∃ c, { x with fireCount := c } ∈ s.tt.belt ∧ (free → c = x.fireCount)
  unarmed : free → ∀ m a, (s.channel m).armed = some a → a.slot ≠ x.slot

namespace Rests

variable {x : Ticket} {free : Prop}

theorem move (hx : x.loose = false) (h : Rests x free s) (step : Move strokes s t) : Rests x free t := by
  obtain ⟨slots, ⟨c, live, count⟩, unarmed⟩ := h
  have tight : ∀ j, AtSlot s j (fun v => v.loose = true) → x.slot ≠ j := fun j hj e =>
    absurd (hj slots _ live e) (ne_true_of_eq_false (show Ticket.loose { x with fireCount := c } = false from hx))
  refine ⟨step.slots slots, ?_, fun hfree m a ha => ?_⟩
  · cases step with
    | apart _ hb => exact ⟨c, hb ▸ live, count⟩
    | commit => exact ⟨c, live, count⟩
    | release => exact ⟨c, live, count⟩
    | disarm m =>
      unfold State.disarm; split
      · exact ⟨c, live, count⟩
      · rename_i a ha
        by_cases e : x.slot = a.slot
        · refine ⟨none, List.mem_map.mpr ⟨_, live, ?_⟩, fun hfree => absurd e.symm (unarmed hfree m a ha)⟩
          have notArmed : x.state ≠ .armed := fun hs => by simp [Ticket.loose, hs] at hx
          dsimp only
          rw [if_pos e, if_neg notArmed]
        · exact ⟨c, List.mem_map.mpr ⟨_, live, if_neg e⟩, count⟩
    | channel => exact ⟨c, live, count⟩
    | write j f _ hf =>
      refine ⟨c, List.mem_map.mpr ⟨_, live, ?_⟩, count⟩
      split
      · rename_i e
        obtain same | written := hf slots _ live e
        · exact same
        · exact absurd written.loose (ne_true_of_eq_false hx)
      · rfl
    | drop j hj => exact ⟨c, List.mem_filter.mpr ⟨live, by simpa using tight j hj⟩, count⟩
  · cases step with
    | apart _ _ hc => exact unarmed hfree m a (hc m ▸ ha)
    | commit => exact unarmed hfree m a ha
    | release => exact unarmed hfree m a ha
    | disarm j =>
      unfold State.disarm at ha; split at ha
      · exact unarmed hfree m a ha
      · rw [State.channel_modTicket, State.channel_modChannel] at ha
        split at ha
        · cases ha
        · exact unarmed hfree m a ha
    | channel j f hf =>
      rw [State.channel_modChannel] at ha
      split at ha
      · obtain ⟨b, hb, e⟩ | loose := hf a ha
        · exact e ▸ unarmed hfree j b hb
        · exact (tight a.slot loose).symm
      · exact unarmed hfree m a ha
    | write => exact unarmed hfree m a ha
    | drop => exact unarmed hfree m a ha

theorem moves (hx : x.loose = false) (h : Rests x free s) (step : Moves strokes s t) : Rests x free t :=
  step.keeps h (fun m hu => hu.move hx m)

end Rests

/-! ### A confirm list (R25) -/

/-- Records changed with their slots and their places in a confirm list. -/
theorem confirmList_map {b : List Ticket} (g : Ticket → Ticket) (hs : ∀ v, (g v).slot = v.slot)
    (hf : ∀ v ∈ b, (g v).firedAt l = v.firedAt l) : ((b.map g).filter (fun v => v.firedAt l)).map Ticket.slot =
      (b.filter (fun v => v.firedAt l)).map Ticket.slot := by
  rw [List.filter_map, List.map_map, show b.filter ((fun v => v.firedAt l) ∘ g) = b.filter (fun v => v.firedAt l) from
    List.filter_congr hf]
  exact List.map_congr_left (fun v _ => hs v)

theorem firedAt_disarmed (v : Ticket) (l : Lane) : Ticket.firedAt { v with
    fireCount := none, state := if v.state = .armed then .routed else v.state } l = v.firedAt l := by
  unfold Ticket.firedAt Ticket.laneDest
  by_cases e : v.state = .armed
  · rw [if_pos e, e]; rfl
  · rw [if_neg e]

/-- The tickets of a confirm list, in their order, while its lane is not OPEN and no ticket that may fire waits there. -/
structure Confirms (strokes : Prop) (l : Lane) (ks : List Slot) (s : State) : Prop where
  waits : WaitsWithin l (fun _ => ¬ strokes) s
  list : (s.confirmList l).map Ticket.slot = ks

namespace Confirms

variable {ks : List Slot}

theorem move (h : Confirms strokes l ks s) (step : Move strokes s t) : Confirms strokes l ks t := by
  refine ⟨h.waits.move step, ?_⟩
  rw [← h.list]
  have slots := h.waits.slots
  cases step with
  | apart _ hb => unfold State.confirmList; rw [hb]
  | commit => rfl
  | release => rfl
  | disarm m =>
    unfold State.disarm; split
    · rfl
    · refine confirmList_map _ (fun v => by split <;> rfl) (fun v _ => ?_)
      split
      · exact firedAt_disarmed v l
      · rfl
  | channel => rfl
  | write j f hs hf =>
    refine confirmList_map _ (fun v => by split; exacts [hs v, rfl]) (fun v hv => ?_)
    split
    · rename_i e
      obtain same | written := hf slots v hv e
      · rw [same]
      · rw [not_firedAt_of_loose written.loose, Bool.eq_false_iff]
        intro fired
        obtain ⟨may, queued⟩ := written.fired l fired
        exact h.waits.queue v hv queued may
    · rfl
  | drop j hj =>
    refine congrArg (List.map Ticket.slot) ?_
    show (without s j).filter _ = s.tt.belt.filter _
    unfold without
    rw [List.filter_filter]
    refine List.filter_congr (fun v hv => ?_)
    by_cases e : v.slot = j
    · simp [not_firedAt_of_loose (hj slots v hv e)]
    · simp [e]

theorem moves (h : Confirms strokes l ks s) (step : Moves strokes s t) : Confirms strokes l ks t :=
  step.keeps h (fun m hu => hu.move m)

end Confirms

/-- A pass of a lane that is not OPEN leaves its confirm list. -/
theorem confirmList_reresolutionPass (hd : SlotsDistinct s) (hl : (s.lane l).state ≠ .opened) :
    ((s.reresolutionPass l).confirmList l).map Ticket.slot = (s.confirmList l).map Ticket.slot := by
  have start : Confirms False l ((s.confirmList l).map Ticket.slot) s :=
    ⟨⟨hd, hl, fun _ _ _ => not_false⟩, rfl⟩
  have passed := start.moves (Moves.passOver s l ((s.routeQueue l).map Ticket.slot))
  have emptied := (WaitsWithin.start hd hl).passOver
  have attended : Confirms True l _ _ :=
    ⟨⟨emptied.slots, emptied.shut, fun v hv hq => (emptied.queue v hv hq).elim⟩, passed.list⟩
  exact (attended.moves (Moves.attendAll _)).list

/-! ### A change of lane state (R98) -/

/-- A lane stands in its new state, with LANE_FULL set at the entry into FULL and LANE_FAULT at that into FAULTED. -/
def State.enterLaneState (s : State) (l : Lane) (new : LaneState) : State :=
  let u := s.modLane l (fun r => { r with state := new })
  match new with
  | .full => if (s.lane l).state = .full then u else u.raise .laneFull
  | .faulted => if (s.lane l).state = .faulted then u else u.raise .laneFault
  | .opened => u
  | .closed => u

theorem changeLaneState_eq_enter (s : State) (l : Lane) (new : LaneState) : s.changeLaneState l new =
    if (s.lane l).state = .opened ∧ new ≠ .opened then (s.enterLaneState l new).reresolutionPass l
    else s.enterLaneState l new := rfl

theorem changeLaneState_shut (h : (s.lane l).state ≠ .opened) (new : LaneState) :
    s.changeLaneState l new = s.enterLaneState l new := by
  rw [changeLaneState_eq_enter, if_neg (fun e => h e.1)]

theorem changeLaneState_leaves {new : LaneState} (h : (s.lane l).state = .opened) (hn : new ≠ .opened) :
    s.changeLaneState l new = (s.enterLaneState l new).reresolutionPass l := by
  rw [changeLaneState_eq_enter, if_pos ⟨h, hn⟩]

theorem lanes_enterLaneState (s : State) (l : Lane) (new : LaneState) :
    (s.enterLaneState l new).lanes = (s.modLane l (fun r => { r with state := new })).lanes := by
  unfold State.enterLaneState
  cases new with
  | full => dsimp only; split <;> rfl
  | faulted => dsimp only; split <;> rfl
  | opened => rfl
  | closed => rfl

theorem tt_enterLaneState (s : State) (l : Lane) (new : LaneState) : (s.enterLaneState l new).tt = s.tt := by
  unfold State.enterLaneState
  cases new with
  | full => dsimp only; split <;> rfl
  | faulted => dsimp only; split <;> rfl
  | opened => rfl
  | closed => rfl

theorem lane_enterLaneState (s : State) (l : Lane) (new : LaneState) :
    (s.enterLaneState l new).lane l = { s.lane l with state := new } := by
  rw [State.lane, lanes_enterLaneState]; exact State.lane_modLane_self s l _

/-- Besides the lane's state, committed counts alone change. -/
theorem CommittedOnly.changeLaneState (s : State) (l : Lane) (new : LaneState) :
    CommittedOnly (s.modLane l (fun r => { r with state := new })) (s.changeLaneState l new) := by
  rw [changeLaneState_eq_enter]
  refine (same (lanes_enterLaneState s l new)).trans ?_
  split
  · exact of_moves (Moves.reresolutionPass _ l)
  · exact same

theorem lane_changeLaneState (s : State) (l : Lane) (new : LaneState) : (s.changeLaneState l new).lane l =
    { s.lane l with state := new, committed := ((s.changeLaneState l new).lane l).committed } := by
  rw [CommittedOnly.changeLaneState s l new l, State.lane_modLane_self]

theorem slots_enterLaneState (hd : SlotsDistinct s) (l : Lane) (new : LaneState) :
    SlotsDistinct (s.enterLaneState l new) := by
  unfold SlotsDistinct; rw [tt_enterLaneState]; exact hd

/-- A lane taken out of OPEN loses its route queue. -/
theorem routeQueue_changeLaneState {new : LaneState} (hd : SlotsDistinct s) (h : (s.lane l).state = .opened)
    (hn : new ≠ .opened) : (s.changeLaneState l new).routeQueue l = [] := by
  rw [changeLaneState_leaves h hn]
  exact routeQueue_reresolutionPass (slots_enterLaneState hd l new)
    (by rw [lane_enterLaneState]; exact hn)

/-- A flag set at the change stays set through the pass. -/
theorem flagSet_changeLaneState {new : LaneState} {f : Flag} (h : (s.enterLaneState l new).flagSet f = true) :
    (s.changeLaneState l new).flagSet f = true := by
  rw [changeLaneState_eq_enter]; split
  · exact (Steady.reresolutionPass _ l).flagSet h
  · exact h

end Sys2Proof.Machine
end

section
/-! What a step keeps, command by command. `StepKept` asks that OPEN LANE's change keeps the property at every lane; a
property that rests on the command's test of the lane's distance (R99) asks for each command whole, and follows through the
characters and the rows of the table in the same way. -/

namespace Sys2Proof.Machine

/-- What the part's own course, the eyes, the reader line, the resets and every command keep. -/
structure CommandsKept (P : State → Prop) : Prop extends OwnKept P where
  held (s : State) (c : ResetCause) (x : Nat) : P (s.held c x)
  released {s : State} {c : ResetCause} (g : Guard) : s.inReset = some c → P s →
    P { s with inReset := none, mc := { s.mc with guard := g, cause := c } }
  laneEyeLeads {s : State} (l : Lane) : P s → P (s.laneEyeLeads l)
  endEyeLeads {s : State} : P s → P s.endEyeLeads
  inductionLeads {s : State} : P s → P s.inductionLeads
  inductionTrails {s : State} : P s → P s.inductionTrails
  readerReceives {s : State} (c : LineChar) : P s → P (s.readerReceives c)
  guardOpens {s : State} : P s → P s.guardOpens
  guardCloses {s : State} : P s → P { s with mc := { s.mc with guard := .closed } }
  commands : EveryCommand (fun f => ∀ {s : State}, P s → P (f s).1)

namespace CommandsKept

variable {P : State → Prop} {s t : State} (k : CommandsKept P)

include k

/-! ### Frames and characters -/

theorem cancelReply (h : P s) : P s.cancelReply := by
  unfold State.cancelReply; split
  · exact h
  · exact ite_keeps (k.softReset h) (k.alike h {})

theorem replyDue (a : Answer) (h : P s) : P (s.replyDue a) := ite_keeps h (k.alike h {})

theorem takeCommand {f : State → State × Answer} (hf : ∀ {u}, P u → P (f u).1) (h : P s) : P (s.takeCommand f) :=
  k.replyDue _ (hf (k.alike h {}))

theorem lineMarked (v : Byte) (h : P s) : P (s.lineMarked v) := by
  have c := k.cancelReply h
  exact ite_keeps (k.alike c {}) (ite_keeps (k.alike c {}) (k.alike c {}))

theorem refuseFrame (st : Status) (h : P s) : P (s.refuseFrame st) := k.replyDue _ (k.alike h {})

theorem commandChar (code : Byte) (h : P s) : P (s.commandChar code) := by
  unfold State.commandChar; split
  · split
    · exact k.commands.hold (k.alike h {})
    · exact k.commands.resume (k.alike h {})
    · exact k.alike h {}
  · split
    · exact k.refuseFrame _ h
    · exact ite_keeps (k.takeCommand (k.commands.commandOf _ _) h) (k.alike h {})

theorem paramChar (code : Byte) (ps : List Byte) (v : Byte) (h : P s) : P (s.paramChar code ps v) := by
  unfold State.paramChar; split
  · exact k.alike h {}
  · exact ite_keeps (k.refuseFrame _ h) (ite_keeps (k.alike h {}) (k.takeCommand (k.commands.commandOf _ _) h))

theorem lineData (v : Byte) (h : P s) : P (s.lineData v) := by
  have quiet : P { s with sli := { s.sli with quietTimer := 0 } } := k.alike h {}
  unfold State.lineData; dsimp only; split
  · exact quiet
  · exact quiet
  · exact k.commandChar v quiet
  · exact k.paramChar _ _ v quiet

theorem lineReceives (c : LineChar) (h : P s) : P (s.lineReceives c) :=
  ite_keeps (ite_keeps (k.lineMarked _ h) (k.lineData _ h)) (k.cancelReply (k.alike h {}))

/-! ### The rows of the table -/

theorem station {f : State → State × Answer} (h : P s) (ht : s.station f = .next t) (hf : ∀ {u}, P u → P (f u).1) :
    P t := by
  obtain e | e := State.station_cases ht <;> rw [e]
  · exact h
  · exact k.takeCommand hf (k.cancelReply h)

theorem broadcasting {f : State → State × Answer} (h : P s) (ht : s.broadcasting f = .next t)
    (hf : ∀ {u}, P u → P (f u).1) : P t :=
  StepKept.event h ht (ite_keeps h (hf (k.alike (k.cancelReply h) {})))

theorem dataRow (v : Byte) (h : P s) (ht : s.dataRow v = .next t) : P t :=
  StepKept.event h ht (ite_keeps h (k.lineData v h))

/-- Every row of the table keeps the property. -/
theorem exec (i : Instr) (h : P s) (ht : exec i s = .next t) : P t := by
  unfold Machine.exec at ht
  cases i with
  | powerOnReset => exact Host.Outcome.next.inj ht ▸ k.held s _ _
  | pinReset =>
    simp only [execPinReset] at ht
    split at ht
    · exact Host.Outcome.next.inj ht ▸ h
    · exact Host.Outcome.next.inj ht ▸ k.held s _ _
  | releaseOfResetN pins =>
    simp only [execReleaseOfResetN] at ht
    split at ht
    · exact Host.Outcome.next.inj ht ▸ h
    · rename_i hr
      exact Host.Outcome.next.inj ht ▸ k.alike (k.released pins.guard hr h) {}
  | encoderPulse => exact StepKept.event h ht (k.pulse (k.settle h))
  | p8Capture => exact StepKept.event h ht (k.takeCapture h)
  | inductionLeadingEdge => exact StepKept.event h ht (k.inductionLeads h)
  | inductionTrailingEdge => exact StepKept.event h ht (k.inductionTrails h)
  | overlength => exact StepKept.event h ht (k.markOverlength h)
  | triggerSend => exact StepKept.event h ht (k.beginTrigger h)
  | readerCharacter c => exact StepKept.event h ht (k.readerReceives c h)
  | holdLimitReached => exact StepKept.event h ht (k.takeReach .holdLimit h)
  | readWindowExpiry j => exact StepKept.event h ht (k.takeReach (.readWindow j) h)
  | fireDue l => exact StepKept.event h ht (k.takeReach (.fire l) h)
  | strokeEndCountReached l => exact StepKept.event h ht (k.takeReach (.strokeEnd l) h)
  | confirmWindowClose j => exact StepKept.event h ht (k.takeReach (.confirmClose j) h)
  | endWindowExpiry j => exact StepKept.event h ht (k.takeReach (.endWindow j) h)
  | stopTimeExpiry | triggerSent | readerGapTimeout | pullTimeElapsed | onTimeCap | recoveryTimeElapsed | testEnd
  | frameGapTimeout | replyStart | replyEnd => exact StepKept.event h ht (k.awaitTimer _ h)
  | carrierPeriodStart => exact StepKept.event h ht (k.runOn _ h)
  | activePortionEnd l => exact StepKept.event h ht (ite_keeps (k.runOn _ h) h)
  | laneEyeLeadingEdge l => exact StepKept.event h ht (k.laneEyeLeads l h)
  | laneEyeTrailingEdge l => exact Host.Outcome.next.inj ht ▸ h
  | endEyeLeadingEdge => exact StepKept.event h ht (k.endEyeLeads h)
  | endEyeTrailingEdge => exact StepKept.event h ht (k.alike h {})
  | guardOpening => exact StepKept.event h ht (k.guardOpens h)
  | guardClosing => exact StepKept.event h ht (k.guardCloses h)
  | addressCharacter v => exact StepKept.event h ht (ite_keeps h (k.lineMarked v h))
  | lineError c => exact StepKept.event h ht (ite_keeps h (k.lineReceives c h))
  | softResetEffect => exact StepKept.event h ht (k.softResetComes h)
  | unknownCommand v | commandCharacter v | parameterCharacter v | badLength v | dataCharacterDuringWait v =>
    exact k.dataRow v h ht
  | readStatus => exact k.station h ht k.commands.readStatus
  | ackAttention w => exact k.station h ht (k.commands.ackAttention w)
  | setMask w => exact k.station h ht (k.commands.setMask w)
  | readReaderCounters => exact k.station h ht k.commands.readReaderCounters
  | setMode m => exact k.station h ht (k.commands.setMode m)
  | hold b =>
    cases b with
    | true => exact k.broadcasting h ht k.commands.hold
    | false => exact k.station h ht k.commands.hold
  | resume b =>
    cases b with
    | true => exact k.broadcasting h ht k.commands.resume
    | false => exact k.station h ht k.commands.resume
  | softReset => exact k.station h ht k.commands.softReset
  | writeGeometry r => exact k.station h ht (k.commands.writeGeometry r)
  | writeLanes a rs => exact k.station h ht (k.commands.writeLanes a rs)
  | writeCarrier c => exact k.station h ht (k.commands.writeCarrier c)
  | testStroke l d => exact k.station h ht (k.commands.testStroke l d)
  | openLane l => exact k.station h ht (k.commands.openLane l)
  | closeLane l => exact k.station h ht (k.commands.closeLane l)
  | setCapacity l w => exact k.station h ht (k.commands.setCapacity l w)
  | rackExchanged l => exact k.station h ht (k.commands.rackExchanged l)
  | readLanes a n => exact k.station h ht (k.commands.readLanes a n)
  | writePatterns a rs => exact k.station h ht (k.commands.writePatterns a rs)
  | writeForms a rs => exact k.station h ht (k.commands.writeForms a rs)
  | writeClasses a rs => exact k.station h ht (k.commands.writeClasses a rs)
  | writeRoutes a rs => exact k.station h ht (k.commands.writeRoutes a rs)
  | writeCatalogueSettings r => exact k.station h ht (k.commands.writeSettings r)
  | readPatterns a n => exact k.station h ht (k.commands.readPatterns a n)
  | readForms a n => exact k.station h ht (k.commands.readForms a n)
  | readClasses a n => exact k.station h ht (k.commands.readClasses a n)
  | readRoutes a n => exact k.station h ht (k.commands.readRoutes a n)
  | readCatalogueSettings => exact k.station h ht k.commands.readSettings
  | readTicket a b => exact k.station h ht (k.commands.readTicket a b)
  | findTickets a b c => exact k.station h ht (k.commands.findTickets a b c)
  | redirect a b c => exact k.station h ht (k.commands.redirect a b c)
  | pull a b => exact k.station h ht (k.commands.pull a b)
  | readTallies => exact k.station h ht k.commands.readTallies
  | clearTallies => exact k.station h ht k.commands.clearTallies
  | readEndMonitor => exact k.station h ht k.commands.readEndMonitor

/-- A step keeps the property. -/
theorem step (h : P s) (ht : step s = .next t) : P t :=
  step_keeps (P := P) (fun _ _ hu => k.alike hu {}) (fun _ hu => k.alike hu {}) (fun _ hu => k.elapse 1 hu)
    (fun i _ _ hu ht => k.exec i hu ht) h ht

end CommandsKept
end Sys2Proof.Machine
end

section
/-! Sections 6.2 and 6.3: an OPEN lane has room and is installed, a FULL lane has none (R97 to R103). The operations on
tickets, channels and drives change lane records in their committed counts alone, which the soundness of a record does not
read; what changes more is taken lane by lane. -/

namespace Sys2Proof.Machine.CommittedOnly

open Sys2Proof.Safety

variable {s : State} {l : Lane}

theorem choice {c : Prop} [Decidable c] {a b : State} (ha : CommittedOnly s a) (hb : CommittedOnly s b) :
    CommittedOnly s (if c then a else b) := ite_keeps (P := CommittedOnly s) ha hb

/-! ### Tickets -/

theorem forLanes {f : State → Lane → State} (h : ∀ s l, CommittedOnly s (f s l)) (s : State) :
    CommittedOnly s (s.forLanes f) :=
  State.forLanes_keeps (P := CommittedOnly s) s same (fun _ l hu => hu.trans (h _ l))

theorem enterSetup (s : State) : CommittedOnly s s.enterSetup := by
  obtain ⟨d, c, e⟩ := enterSetup_eq s
  rw [e]; exact same

theorem drainCheck (s : State) : CommittedOnly s s.drainCheck := ite_keeps (enterSetup s) same

theorem retire (s : State) (k : Slot) (o : TicketOutcome) : CommittedOnly s (s.retire k o) := by
  unfold State.retire; split
  · exact same
  · rename_i t _
    have removed : CommittedOnly s (s.remove t o) := fun l => by rw [State.lane_remove]
    exact removed.trans (drainCheck _)

theorem flush (s : State) : CommittedOnly s s.flush := fun l => by rw [State.lane_flush]

theorem letGo (s : State) (t : Ticket) : CommittedOnly s ((s.disarmOf t).releaseOf t) :=
  of_moves ((Moves.disarmOf (strokes := False) s t).trans (Moves.releaseOf _ t))

theorem sendToRunOff (s : State) (k : Slot) (r : Reason) : CommittedOnly s (s.sendToRunOff k r) := by
  have off : CommittedOnly s (s.modTicket k (fun t => { t with
      state := .runningOff, dest := some .runOff, reason := some r, joined := false, nominal := none
      span := none })) := same
  exact (off.trans (of_moves (Moves.countRunOff (strokes := False) _ r))).trans
    (of_moves (Moves.enterRunningOff (strokes := False) (AtSlot.same (AtSlot.written s k _) (belt_countRunOff _ r))))

theorem openTicket (s : State) (k : Slot) (tag : Tag) : CommittedOnly s (s.openTicket k tag) := by
  obtain ⟨-, -, -, lanes⟩ := TableSound.openTicket_tables s k tag
  exact same lanes

/-! ### Diverts -/

theorem attendLane (s : State) (l : Lane) : CommittedOnly s (s.attendLane l) := of_moves (Moves.attendLane s l)

theorem attendAll (s : State) : CommittedOnly s s.attendAll := of_moves (Moves.attendAll s)

theorem missFire (s : State) (l : Lane) (t : Ticket) : CommittedOnly s (s.missFire l t) :=
  (of_moves ((Moves.freeChannel (strokes := False) s l).trans (Moves.releaseOf _ t))).trans (sendToRunOff _ _ _)

theorem takeDueFire (s : State) (l : Lane) : CommittedOnly s (s.takeDueFire l) :=
  (of_moves (Moves.fire s l false)).trans (attendLane _ l)

theorem recomputeLane (s : State) (l : Lane) : CommittedOnly s (s.recomputeLane l) := by
  unfold State.recomputeLane; split
  · exact same
  · split
    · exact choice (trans (trans same (of_moves (Moves.fire _ l true))) (attendLane _ l)) same
    all_goals exact same

theorem judgeDeferred (s : State) (l : Lane) : CommittedOnly s (s.judgeDeferred l) := by
  have miss : ∀ t, CommittedOnly s ((s.missFire l t).attendLane l) := fun t => (missFire s l t).trans (attendLane _ l)
  have begins : ∀ t, CommittedOnly s ((s.beginStroke l t).attendLane l) := fun t =>
    (show CommittedOnly s (s.beginStroke l t) from same).trans (attendLane _ l)
  unfold State.judgeDeferred; split
  · split
    · exact same
    · split
      · exact same
      · exact miss _
      · exact choice (miss _) (begins _)
      · exact choice (miss _) (begins _)
  all_goals exact same

theorem recoverLane (s : State) (l : Lane) : CommittedOnly s (s.recoverLane l) :=
  have recovers : CommittedOnly s (s.driveRecover l) := same
  choice (recovers.trans (judgeDeferred _ l)) recovers

theorem takeTestEnd (s : State) (l : Lane) : CommittedOnly s (s.takeTestEnd l) := by
  unfold State.takeTestEnd; split
  · exact recoverLane s l
  all_goals exact same

theorem strokeEnds (s : State) (l : Lane) : CommittedOnly s (s.strokeEnds l) :=
  (show CommittedOnly s ((s.closeChannel l).endStroking l id) from same).trans (takeTestEnd _ l)

theorem cutShort (s : State) (l : Lane) (m : Marks → Marks) :
    CommittedOnly s (((s.endStroking l m).closeChannel l).recoverLane l) :=
  (show CommittedOnly s ((s.endStroking l m).closeChannel l) from same).trans (recoverLane _ l)

theorem abortLane (s : State) (l : Lane) : CommittedOnly s (s.abortLane l) := choice (cutShort s l _) same

theorem capStroke (s : State) (l : Lane) : CommittedOnly s (s.capStroke l) := by
  unfold State.capStroke; split
  · exact cutShort s l _
  all_goals exact recoverLane s l

theorem enterHold (s : State) (m : HeldFrom) : CommittedOnly s (s.enterHold m) :=
  (show CommittedOnly s ((s.setMode (.hold m)).raise .holdEntered) from same).trans (forLanes abortLane _)

theorem endTestStrokes (s : State) : CommittedOnly s s.endTestStrokes :=
  forLanes (fun s _ => choice same same) s

theorem elapse (s : State) (n : Nat) : CommittedOnly s (s.elapse n) := by
  unfold State.elapse; split
  · exact same
  · exact (show CommittedOnly s _ from same).trans (forLanes (fun _ _ => same) _)

/-! ### Resolution, REDIRECT and PULL -/

theorem commit (s : State) (l : Lane) : CommittedOnly s (s.commit l) := of_moves (.single (Move.commit (strokes := False) s l))

theorem giveLane (s : State) (k : Slot) (c : WareClass) (l : Lane) (r : Reason) (hops : Nat) :
    CommittedOnly s (s.giveLane k c l r hops) := (commit s l).trans same

theorem writeWalk (s : State) (k : Slot) (c : WareClass) (e : WalkEnd) : CommittedOnly s (s.writeWalk k c e) := by
  unfold State.writeWalk; split
  · exact giveLane s k c _ _ _
  · exact (show CommittedOnly s (s.modTicket k (fun t => { t with hops := e.hops })) from same).trans (sendToRunOff _ _ _)

theorem crowd (s : State) (k : Slot) (passing : List Slot) : CommittedOnly s (s.crowd k passing) :=
  of_moves (Moves.crowd (strokes := False) s k passing)

theorem resolve (s : State) (k : Slot) (c : Cause) : CommittedOnly s (s.resolve k c) := by
  unfold State.resolve; split
  · exact same
  · rename_i t _
    split
    · have streaked : CommittedOnly s (s.streak c) := choice same
        (choice same same)
      have noted : CommittedOnly s ((s.streak c).modTicket k (fun u => { u with
        tag := none, windowEnd := none, outlet := ((s.streak c).startCase t c).outlet
        cls := some ((s.streak c).startCase t c).cls })) := streaked
      exact ((noted.trans (writeWalk _ _ _ _)).trans (crowd _ _ _)).trans (attendAll _)
    · exact same

theorem applyRedirect (s : State) (t : Ticket) (d : Dest) : CommittedOnly s (s.applyRedirect t d) := by
  have released : CommittedOnly s (((s.disarmOf t).releaseOf t).modTicket t.slot (fun t =>
    { t with hops := 0, marks := {}, fireCount := none })) := letGo s t
  unfold State.applyRedirect
  cases d with
  | lane l => exact ((released.trans (giveLane _ _ _ _ _ _)).trans (crowd _ _ _)).trans (attendAll _)
  | runOff =>
    refine (CommittedOnly.trans ?_ (crowd _ _ _)).trans (attendAll _)
    dsimp only
    unfold State.redirectToRunOff; split
    · exact released.trans (sendToRunOff _ _ _)
    · exact released

theorem pullTicket (s : State) (t : Ticket) : CommittedOnly s (s.pullTicket t) := by
  unfold State.pullTicket; split
  · exact (retire s _ _).trans (attendLane _ _)
  · exact retire s _ _

/-! ### The induction eye and the reader line -/

theorem induct (s : State) : CommittedOnly s s.induct := by
  unfold State.induct; split
  · exact same
  · have advanced : CommittedOnly s { s with ind := { s.ind with nextTag := s.ind.nextTag + 1 } } := same
    dsimp only
    generalize ({ s with ind := { s.ind with nextTag := s.ind.nextTag + 1 } } : State) = u at advanced ⊢
    have opens : ∀ {u : State}, CommittedOnly s u → CommittedOnly s (match u.mode, u.freeSlot? with
        | .setup, _ => u
        | _, none => u
        | _, some j => u.openTicket j s.ind.nextTag) := by
      intro u hu; split
      · exact hu
      · exact hu
      · exact hu.trans (openTicket u _ _)
    cases u.pendingWithTag? s.ind.nextTag with
    | none => exact opens advanced
    | some t => exact opens (advanced.trans (resolve u _ _))

theorem inductionLeads (s : State) : CommittedOnly s s.inductionLeads := by
  unfold State.inductionLeads; split
  · exact same
  · dsimp only; split
    · exact same
    all_goals exact induct _

theorem report (s : State) (tag : Tag) (p f st : Byte) : CommittedOnly s (s.report tag p f st) := by
  unfold State.report; dsimp only; split
  · exact same
  · refine choice same (choice (choice same ?_) same)
    exact resolve _ _ _

theorem readerReceives (s : State) (c : LineChar) : CommittedOnly s (s.readerReceives c) := by
  have marked : ∀ v, (s.readerMarked v).lanes = s.lanes := fun v => by
    unfold State.readerMarked
    cases s.rli.assembly <;> dsimp only <;> split <;> rfl
  have data : ∀ v, CommittedOnly s (s.readerData v) := fun v => by
    unfold State.readerData; split
    · exact same
    · exact same
    · exact same
    · exact report _ _ _ _ _
  exact choice (choice (same (marked _)) (data _)) same

end Sys2Proof.Machine.CommittedOnly
end

section
/-! Every step keeps the lane records sound (R97 to R103). -/

namespace Sys2Proof.Safety.LanesSound

open Sys2Proof.Machine

variable {s t : State} {l : Lane}

/-! ### Single changes -/

theorem lanes (h : LanesSound s) (e : t.lanes = s.lanes := by rfl) : LanesSound t := fun l => by
  rw [State.lane, e]; exact h l

/-- The committed counts say nothing of a record's soundness. -/
theorem committed (h : LanesSound s) (e : CommittedOnly s t) : LanesSound t := fun l => by
  have sound := h l
  rw [e l]
  exact ⟨sound.installed, sound.openHasRoom, sound.fullHasNone, sound.fillRange⟩

theorem modLane (h : LanesSound s) (l : Lane) (f : LaneRecord → LaneRecord) (hf : LaneSound (f (s.lane l))) :
    LanesSound (s.modLane l f) := fun m => by
  rw [State.lane_modLane]; split
  · rename_i e; exact e ▸ hf
  · exact h m

/-- Failures and stray counters say nothing of it either. -/
theorem counters (h : LanesSound s) (l : Lane) (f : LaneRecord → LaneRecord)
    (hf : ∀ r, f r = { r with failures := (f r).failures, strays := (f r).strays }) : LanesSound (s.modLane l f) := by
  refine h.modLane l f ?_
  have sound := h l
  rw [hf]
  exact ⟨sound.installed, sound.openHasRoom, sound.fullHasNone, sound.fillRange⟩

/-- The record written before a change of state may break what the old state asks. -/
theorem changeLaneState (h : LanesSound s) (l : Lane) (f : LaneRecord → LaneRecord) (new : LaneState)
    (hf : LaneSound { f (s.lane l) with state := new }) : LanesSound ((s.modLane l f).changeLaneState l new) := by
  refine committed (fun m => ?_) (CommittedOnly.changeLaneState _ l new)
  rw [State.lane_modLane]; split
  · rename_i e; subst e; rw [State.lane_modLane_self]; exact hf
  · rename_i e; rw [State.lane_modLane, if_neg e]; exact h m

theorem addFill (h : LanesSound s) (l : Lane) : LanesSound (s.addFill l) := by
  have sound := h l
  have range : satInc 999 (s.lane l).fill ≤ 999 := Nat.min_le_right _ _
  have rises : (s.lane l).fill ≤ satInc 999 (s.lane l).fill := by have := sound.fillRange; unfold satInc; omega
  unfold State.addFill; dsimp only
  rw [State.lane_modLane_self]
  split
  · rename_i fills
    obtain ⟨opened, room⟩ := fills
    exact h.changeLaneState l _ _ ⟨fun _ => sound.installed (by rw [opened]; nofun), nofun, fun _ => room, range⟩
  · rename_i fills
    exact h.modLane l _ ⟨sound.installed, fun opened => Nat.lt_of_not_le (fun room => fills ⟨opened, room⟩),
      fun full => (sound.fullHasNone full).trans rises, range⟩

theorem countFailure (h : LanesSound s) (l : Lane) : LanesSound (s.countFailure l) := by
  have sound := h l
  unfold State.countFailure; dsimp only
  rw [State.lane_modLane_self]
  split
  · rename_i fails
    refine h.changeLaneState l _ _ ⟨fun _ => sound.installed (fun closed => ?_), nofun, nofun, sound.fillRange⟩
    obtain ⟨opened | full, -⟩ := fails
    · rw [closed] at opened; cases opened
    · rw [closed] at full; cases full
  · exact h.counters l _ (fun _ => rfl)

theorem setCapacity (h : LanesSound s) (l : Lane) (n : Nat) : LanesSound (s.setCapacity l n) := by
  have sound := h l
  unfold State.setCapacity; dsimp only
  rw [State.lane_modLane_self]
  cases state : (s.lane l).state with
  | opened =>
    have installed : (s.lane l).distance ≠ 0 := sound.installed (by rw [state]; nofun)
    dsimp only; split
    · rename_i room; exact h.changeLaneState l _ _ ⟨fun _ => installed, nofun, fun _ => room, sound.fillRange⟩
    · rename_i room
      exact h.modLane l _ ⟨fun _ => installed, fun _ => Nat.lt_of_not_le room, by simp [state], sound.fillRange⟩
  | full =>
    have installed : (s.lane l).distance ≠ 0 := sound.installed (by rw [state]; nofun)
    dsimp only; split
    · rename_i room; exact h.changeLaneState l _ _ ⟨fun _ => installed, fun _ => room, nofun, sound.fillRange⟩
    · rename_i room
      exact h.modLane l _ ⟨fun _ => installed, by simp [state], fun _ => Nat.le_of_not_lt room, sound.fillRange⟩
  | closed => exact h.modLane l _ ⟨sound.installed, by simp [state], by simp [state], sound.fillRange⟩
  | faulted => exact h.modLane l _ ⟨sound.installed, by simp [state], by simp [state], sound.fillRange⟩

theorem exchangeRack (h : LanesSound s) (l : Lane) : LanesSound (s.exchangeRack l) := by
  have sound := h l
  unfold State.exchangeRack; dsimp only
  rw [State.lane_modLane_self]
  split
  · rename_i exchanged
    obtain ⟨full, room⟩ := exchanged
    exact h.changeLaneState l _ _ ⟨fun _ => sound.installed (by rw [full]; nofun), fun _ => room, nofun, Nat.zero_le _⟩
  · rename_i exchanged
    refine h.modLane l _ ⟨sound.installed, fun opened => Nat.zero_lt_of_lt (sound.openHasRoom opened), fun full => ?_,
      Nat.zero_le _⟩
    exact Nat.le_of_not_lt (fun room => exchanged ⟨full, room⟩)

/-- OPEN LANE opens an installed lane only (R99). -/
theorem openLane (h : LanesSound s) (l : Lane) (installed : (s.lane l).distance ≠ 0) : LanesSound (s.openLane l) := by
  have sound := h l
  unfold State.openLane; dsimp only
  rw [State.lane_modLane_self]
  split
  · rename_i room; exact h.changeLaneState l _ _ ⟨fun _ => installed, fun _ => room, nofun, sound.fillRange⟩
  · rename_i room
    exact h.changeLaneState l _ _ ⟨fun _ => installed, nofun, fun _ => Nat.le_of_not_lt room, sound.fillRange⟩

theorem closeLane (h : LanesSound s) (l : Lane) : LanesSound (s.changeLaneState l .closed) := by
  have closed := h.changeLaneState l id .closed ⟨fun e => absurd rfl e, nofun, nofun, (h l).fillRange⟩
  rwa [show s.modLane l id = s by simp [State.modLane, tableMod_id]] at closed

/-- A lane written with distance 0 is CLOSED (R97). -/
theorem laneSound_configure {r : LaneRecord} (sound : LaneSound r) (c : LaneConfig) : LaneSound (r.configure c) := by
  by_cases zero : c.distance = 0
  · have closed : (r.configure c).state = .closed := if_pos zero
    exact ⟨fun e => absurd closed e, by rw [closed]; nofun, by rw [closed]; nofun, sound.fillRange⟩
  · have kept : (r.configure c).state = r.state := if_neg zero
    exact ⟨fun _ => zero, fun opened => sound.openHasRoom (kept ▸ opened), fun full => sound.fullHasNone (kept ▸ full),
      sound.fillRange⟩

theorem configureFrom (h : LanesSound s) (n : Nat) (cs : List LaneConfig) : LanesSound (s.configureFrom n cs) := by
  induction cs generalizing s n with
  | nil => exact h
  | cons c cs ih =>
    unfold State.configureFrom; split
    · exact ih (h.modLane _ _ (laneSound_configure (h _) c)) _
    · exact ih h _

/-! ### Tickets and resets -/

theorem retire (h : LanesSound s) (k : Slot) (o : TicketOutcome) : LanesSound (s.retire k o) := h.committed (.retire s k o)

theorem expireEnd (h : LanesSound s) (k : Slot) : LanesSound (s.expireEnd k) := by
  unfold State.expireEnd; split
  · exact h
  · split
    · exact (h.retire k _).addFill _
    · exact h.retire k _
    · exact h.retire k _
    all_goals exact h

theorem closeConfirm (h : LanesSound s) (k : Slot) : LanesSound (s.closeConfirm k) := by
  unfold State.closeConfirm; split
  · exact h
  · rename_i t _
    split
    · exact h
    · rename_i l _
      have doubted : LanesSound ((s.releaseOf t).modTicket k (fun t => { t with state := .doubt, closeCount := none })) :=
        (h.committed (.of_moves (Moves.releaseOf (strokes := False) s t))).lanes
      have counted := ite_keeps (c := t.joined = true) doubted (doubted.countFailure l)
      exact ite_keeps (expireEnd counted.lanes _) counted.lanes

theorem softReset (h : LanesSound s) : LanesSound s.softReset := by
  have cleared : LanesSound s.flush.clearFailures := State.forLanes_keeps (P := LanesSound) _ (h.committed (.flush s))
    (fun _ l hu => hu.counters l (fun r => { r with failures := 0 }) (fun _ => rfl))
  unfold State.softReset
  generalize s.flush.clearFailures = u at cleared ⊢
  exact cleared.lanes

theorem sightLane (h : LanesSound s) (l : Lane) : LanesSound (s.sightLane l) := by
  unfold State.sightLane; split
  · exact (h.counters l _ (fun _ => rfl)).addFill l
  · exact ((h.retire _ _).counters l _ (fun _ => rfl)).addFill l

/-- What the part's own course changes keeps the records sound. -/
theorem ownKept : OwnKept LanesSound where
  alike h e := h.lanes e.lanes
  elapse n h := h.committed (.elapse _ n)
  record _ _ _ h := h.lanes
  clearEye h := h.lanes
  resolve k c h := h.committed (.resolve _ k c)
  recomputeLeads h := h.committed (CommittedOnly.forLanes .recomputeLane _)
  takeDueFire l h := h.committed (.takeDueFire _ l)
  strokeEnds l h := h.committed (.strokeEnds _ l)
  closeConfirm k h := h.closeConfirm k
  expireEnd k h := h.expireEnd k
  leavePull l _ h := ite_keeps (h.committed (.recoverLane _ l)) h.lanes
  capStroke l _ h := h.committed (.capStroke _ l)
  endRecovery l _ h := h.committed (.judgeDeferred _ l)
  takeTestEnd l _ h := h.committed (.takeTestEnd _ l)
  softReset h := h.softReset

/-! ### Inputs and commands -/

theorem sightEnd (h : LanesSound s) : LanesSound s.sightEnd := by
  unfold State.sightEnd; split
  · exact h.retire _ _
  · exact h.lanes

theorem setMode (h : LanesSound s) (m : Mode) : LanesSound (s.setMode m) := h.lanes

theorem drainCheck (h : LanesSound s) : LanesSound s.drainCheck := h.committed (.drainCheck s)

theorem enterHold (h : LanesSound s) (m : HeldFrom) : LanesSound (s.enterHold m) := h.committed (.enterHold s m)

theorem endTestStrokes (h : LanesSound s) : LanesSound s.endTestStrokes := h.committed (.endTestStrokes s)

theorem guardOpens (h : LanesSound s) : LanesSound s.guardOpens := by
  have opened : LanesSound { s with mc := { s.mc with guard := .opened } } := h.lanes
  unfold State.guardOpens; split
  · exact h
  · dsimp only; split
    · exact opened.enterHold _
    · exact opened.enterHold _
    · exact opened
    · exact opened.endTestStrokes

theorem modeAnswer (h : LanesSound s) (st : Status) : LanesSound (s.modeAnswer st).1 := h

theorem modeCommand (h : LanesSound s) (m : Byte) : LanesSound (cmdSetMode m s).1 := by
  have run : LanesSound s.enterRun.1 := by
    unfold State.enterRun; split
    · exact h
    · split
      · exact h.modeAnswer _
      · exact (h.endTestStrokes.setMode .run).modeAnswer _
  have setup : LanesSound s.flushToSetup := h.committed ((CommittedOnly.flush s).trans (.enterSetup _))
  unfold cmdSetMode; split
  case h_4 => exact setup.modeAnswer _
  case h_5 => exact run
  case h_7 => exact (h.setMode .run).modeAnswer _
  case h_10 => exact (h.setMode .drain).drainCheck.modeAnswer _
  all_goals exact h.modeAnswer _

theorem hold (h : LanesSound s) : LanesSound (cmdHold s).1 := by
  unfold cmdHold; split
  · exact h.modeAnswer _
  · exact (h.enterHold .run).modeAnswer _
  · exact (h.enterHold .drain).modeAnswer _
  · exact h.modeAnswer _

theorem resume (h : LanesSound s) : LanesSound (cmdResume s).1 := by
  unfold cmdResume; split
  · rename_i m _ _
    exact ((ownKept.settle h).setMode m.mode).drainCheck.modeAnswer _
  all_goals exact h.modeAnswer _

theorem blockWrite {α β : Type} {n : Nat} (first : Byte) (rs : List α) (f : α → Option β) (entry : β → α → Bool)
    (v : Vector β n) {c : Vector β n → Catalogue} (h : LanesSound s) :
    LanesSound (s.blockWrite first rs f entry v (fun v => { s with cat := c v })).1 := by
  refine StepKept.answer_ite h (StepKept.answer_ite h ?_)
  split
  · exact h
  · exact h.lanes

theorem writeLanes (h : LanesSound s) (a : Byte) (rs : List LaneWrite) : LanesSound (cmdWriteLanes a rs s).1 := by
  refine StepKept.answer_ite h (StepKept.answer_ite h (StepKept.answer_ite h ?_))
  split
  · exact h
  · exact h.configureFrom _ _

theorem openLaneCommand (h : LanesSound s) (b : Byte) : LanesSound (cmdOpenLane b s).1 := by
  refine StepKept.onLane h b (fun l => ?_)
  split
  · exact h
  · rename_i installed
    split
    · exact h.openLane l installed
    · exact h.openLane l installed
    · exact h
    · exact h

theorem applyRedirect (h : LanesSound s) (t : Ticket) (d : Dest) : LanesSound (s.applyRedirect t d) :=
  h.committed (.applyRedirect s t d)

theorem redirect (h : LanesSound s) (a b c : Byte) : LanesSound (cmdRedirect a b c s).1 := by
  refine StepKept.answer_ite h (StepKept.answer_ite h ?_)
  split
  · exact h
  · exact h
  · refine StepKept.answer_ite h (StepKept.answer_ite h (StepKept.answer_ite h ?_))
    dsimp only
    exact h.applyRedirect _ _

theorem pull (h : LanesSound s) (a b : Byte) : LanesSound (cmdPull a b s).1 := by
  refine StepKept.answer_ite h (StepKept.answer_ite h ?_)
  split
  · exact h
  · rename_i t _
    have pulled : LanesSound (s.pullTicket t) := h.committed (.pullTicket s t)
    exact StepKept.answer_ite h pulled

theorem everyCommand : EveryCommand (fun f => ∀ {s : State}, LanesSound s → LanesSound (f s).1) where
  unknown h := h
  readStatus h := h
  ackAttention _ _ h := h.lanes
  setMask _ _ h := h.lanes
  readReaderCounters h := h
  setMode m _ h := h.modeCommand m
  hold h := h.hold
  resume h := h.resume
  softReset h := h
  writeGeometry r _ h := StepKept.answer_ite h (StepKept.answer_ite h (ite_keeps (ownKept.stopBelt h.lanes) h.lanes))
  writeLanes a rs _ h := h.writeLanes a rs
  writeCarrier _ _ h := StepKept.answer_ite h (StepKept.answer_ite h h.lanes)
  testStroke l d _ h := by
    refine StepKept.answer_ite h ?_
    split
    · exact h
    · exact StepKept.answer_ite h (StepKept.answer_ite h h.lanes)
  openLane b _ h := h.openLaneCommand b
  closeLane b _ h := StepKept.onLane h b (fun l => h.closeLane l)
  setCapacity b _ _ h := StepKept.onLane h b (fun l => h.setCapacity l _)
  rackExchanged b _ h := StepKept.onLane h b (fun l => h.exchangeRack l)
  readLanes _ _ _ h := StepKept.answer_ite h (StepKept.answer_ite h h)
  writePatterns _ _ _ h := blockWrite _ _ _ _ _ h
  writeForms _ _ _ h := blockWrite _ _ _ _ _ h
  writeClasses _ _ _ h := blockWrite _ _ _ _ _ h
  writeRoutes _ _ _ h := blockWrite _ _ _ _ _ h
  writeSettings r _ h := by
    unfold cmdWriteSettings; split
    · exact h
    · exact h
    · exact h.lanes
  readPatterns _ _ _ h := StepKept.blockRead _ _ _ _ h
  readForms _ _ _ h := StepKept.blockRead _ _ _ _ h
  readClasses _ _ _ h := StepKept.blockRead _ _ _ _ h
  readRoutes _ _ _ h := StepKept.blockRead _ _ _ _ h
  readSettings h := h
  readTicket _ _ _ h := by
    refine StepKept.answer_ite h ?_
    split <;> exact h
  findTickets _ _ _ _ h := by
    refine StepKept.answer_ite h ?_
    split <;> exact h
  redirect a b c _ h := h.redirect a b c
  pull a b _ h := h.pull a b
  readTallies h := h
  clearTallies h := State.forLanes_keeps (P := LanesSound) _ h.lanes (fun _ l hu => hu.counters l _ (fun _ => rfl))
  readEndMonitor h := h

theorem commandsKept : CommandsKept LanesSound where
  toOwnKept := ownKept
  held s c x := fun l => by
    have reset : (s.held c x).lane l = .reset := by simp [State.held, State.reset, State.lane]
    rw [reset]
    exact ⟨fun e => absurd rfl e, nofun, nofun, Nat.zero_le _⟩
  released g _ h := h.lanes
  laneEyeLeads l h := by
    unfold State.laneEyeLeads; split
    · exact h
    all_goals exact h.sightLane l
  endEyeLeads h := by
    unfold State.endEyeLeads; split
    · exact h
    · dsimp only; split
      · exact h.lanes
      all_goals exact sightEnd h.lanes
  inductionLeads h := h.committed (.inductionLeads _)
  inductionTrails h := by
    unfold State.inductionTrails; split
    · exact h
    · dsimp only; split
      · exact h.lanes
      all_goals exact ownKept.endUnderEye _ h.lanes
  readerReceives c h := h.committed (.readerReceives _ c)
  guardOpens h := h.guardOpens
  guardCloses h := h.lanes
  commands := everyCommand

end Sys2Proof.Safety.LanesSound

open Sys2Proof.Machine Sys2Proof.Safety

/-- Settles O58: lane records change by the operations of sections 6.1 to 6.6, each of which leaves the record sound, and by
diverts, walks and splits, which change committed counts alone. -/
theorem stepKeepsLanesSound : Obligations.StepKeepsLanesSound := fun _ _ h ht => LanesSound.commandsKept.step h ht
end

section
/-! What each lane command makes of its lane's record (R99 to R102). -/

namespace Sys2Proof.Machine

open Sys2Proof.Safety

variable {s : State} {l : Lane}

/-! ### Lane records and changes of state -/

theorem State.modLane_modLane (s : State) (l : Lane) (f g : LaneRecord → LaneRecord) :
    (s.modLane l f).modLane l g = s.modLane l (fun r => g (f r)) := by
  simp [State.modLane]

theorem State.modLane_congr {f g : LaneRecord → LaneRecord} (h : f (s.lane l) = g (s.lane l)) :
    s.modLane l f = s.modLane l g := by
  unfold State.modLane; rw [tableMod_congr _ _ f g h]

theorem enterLaneState_full (h : (s.lane l).state ≠ .full) :
    s.enterLaneState l .full = (s.modLane l (fun r => { r with state := .full })).raise .laneFull := if_neg h

theorem enterLaneState_faulted (h : (s.lane l).state ≠ .faulted) :
    s.enterLaneState l .faulted = (s.modLane l (fun r => { r with state := .faulted })).raise .laneFault := if_neg h

/-- RACK EXCHANGED (R102). -/
theorem exchangeRack_eq (s : State) (l : Lane) : s.exchangeRack l = s.modLane l (fun r => { r with
    fill := 0, state := if r.state = .full ∧ 0 < r.capacity then .opened else r.state }) := by
  unfold State.exchangeRack; dsimp only
  rw [State.lane_modLane_self]
  split
  · rename_i full
    rw [changeLaneState_shut (by rw [State.lane_modLane_self, full.1]; nofun)]
    refine (State.modLane_modLane s l _ _).trans (State.modLane_congr ?_)
    dsimp only at full ⊢
    rw [if_pos full]
  · rename_i kept
    refine State.modLane_congr ?_
    dsimp only at kept ⊢
    rw [if_neg kept]

/-- OPEN LANE of a lane that is CLOSED or FAULTED and has room (R99). -/
theorem openLane_opens (h : (s.lane l).state = .closed ∨ (s.lane l).state = .faulted)
    (room : (s.lane l).fill < (s.lane l).capacity) :
    s.openLane l = s.modLane l (fun r => { r with state := .opened, failures := 0 }) := by
  have shut : (s.lane l).state ≠ .opened := by obtain e | e := h <;> rw [e] <;> nofun
  unfold State.openLane; dsimp only
  rw [State.lane_modLane_self, if_pos room, changeLaneState_shut (by rw [State.lane_modLane_self]; exact shut)]
  exact State.modLane_modLane s l _ _

/-- OPEN LANE of a lane that is CLOSED or FAULTED and has none. -/
theorem openLane_fills (h : (s.lane l).state = .closed ∨ (s.lane l).state = .faulted)
    (none : (s.lane l).capacity ≤ (s.lane l).fill) :
    s.openLane l = (s.modLane l (fun r => { r with state := .full, failures := 0 })).raise .laneFull := by
  have shut : (s.lane l).state ≠ .opened ∧ (s.lane l).state ≠ .full := by
    obtain e | e := h <;> rw [e] <;> exact ⟨nofun, nofun⟩
  unfold State.openLane; dsimp only
  rw [State.lane_modLane_self, if_neg (Nat.not_lt.mpr none),
    changeLaneState_shut (by rw [State.lane_modLane_self]; exact shut.1),
    enterLaneState_full (by rw [State.lane_modLane_self]; exact shut.2), State.modLane_modLane]

/-- SET CAPACITY of a lane that it leaves in its state (R101). -/
theorem setCapacity_stays {c : Nat} (h : (s.lane l).state = .closed ∨ (s.lane l).state = .faulted ∨
    ((s.lane l).state = .opened ∧ (s.lane l).fill < c) ∨ ((s.lane l).state = .full ∧ c ≤ (s.lane l).fill)) :
    s.setCapacity l c = s.modLane l (fun r => { r with capacity := c }) := by
  unfold State.setCapacity; dsimp only
  rw [State.lane_modLane_self]
  obtain e | e | ⟨e, room⟩ | ⟨e, room⟩ := h <;> rw [e] <;> dsimp only
  · exact if_neg (Nat.not_le.mpr room)
  · exact if_neg (Nat.not_lt.mpr room)

/-- SET CAPACITY of a FULL lane that then has room. -/
theorem setCapacity_opens {c : Nat} (h : (s.lane l).state = .full) (room : (s.lane l).fill < c) :
    s.setCapacity l c = s.modLane l (fun r => { r with capacity := c, state := .opened }) := by
  unfold State.setCapacity; dsimp only
  rw [State.lane_modLane_self, h]
  dsimp only
  rw [if_pos room, changeLaneState_shut (by rw [State.lane_modLane_self, h]; nofun)]
  exact State.modLane_modLane s l _ _

/-- SET CAPACITY of an OPEN lane that then has none. -/
theorem setCapacity_fills {c : Nat} (h : (s.lane l).state = .opened) (none : c ≤ (s.lane l).fill) :
    s.setCapacity l c = (s.modLane l (fun r => { r with capacity := c })).changeLaneState l .full := by
  unfold State.setCapacity; dsimp only
  rw [State.lane_modLane_self, h]
  exact if_pos none

/-! ### Lane commands and their replies -/

theorem State.onLane_inside {lane : Byte} (hl : l.val + 1 = lane.toNat) (f : Lane → State × Answer) :
    s.onLane lane f = f l := by
  unfold State.onLane; rw [laneParam?_eq hl]

theorem State.onLane_outside {lane : Byte} (hl : lane.toNat = 0 ∨ 12 < lane.toNat) (f : Lane → State × Answer) :
    s.onLane lane f = s.refuse .badParam := by
  unfold State.onLane; rw [laneParam?_none hl]

/-- A lane command outside lanes 1 to 12. -/
theorem station_outside {lane : Byte} (h : Listening s) (hl : lane.toNat = 0 ∨ 12 < lane.toNat)
    (f : State → Lane → State × Answer) : s.station (fun u => u.onLane lane (f u)) = .next (answered s .badParam []) :=
  State.station_answered h (State.onLane_outside hl _) rfl

/-- A lane command within them, where the state it leads to is known. -/
theorem station_onLane {lane : Byte} (h : Listening s) (hl : l.val + 1 = lane.toNat) {f : State → Lane → State × Answer}
    {u : State} {st : Status} {r : LaneRecord} (hf : f s.frameDone l = u.frameDone.laneAnswer st l)
    (hr : u.lane l = r) (ha : u.sli.address = s.sli.address := by rfl) :
    s.station (fun u => u.onLane lane (f u)) = .next (answered u st (laneReply r)) :=
  State.station_answered h ((State.onLane_inside hl _).trans (hr ▸ hf)) ha

/-- A lane command after which the rest of the part is as steady as a pass leaves it. -/
theorem station_steady {lane : Byte} (h : Listening s) (hl : l.val + 1 = lane.toNat) {f : State → Lane → State × Answer}
    {u : State} {st : Status} (hf : f s.frameDone l = u.laneAnswer st l) (hu : Steady s.frameDone u) :
    s.station (fun u => u.onLane lane (f u)) = .next { u with
      sli := { u.sli with reply := some { status := st, data := laneReply (u.lane l) }, quietTimer := 0 } } := by
  have addressed : u.sli.address ≠ 0 := by rw [hu.sli]; exact h.addressed
  rw [State.station_listening h, State.takeCommand, State.onLane_inside hl, hf, State.laneAnswer, State.replyDue,
    if_neg addressed]
  rfl

end Sys2Proof.Machine

open Sys2Proof.Machine Sys2Proof.Safety

/-- Settles O51: the exchange is one change of the lane's record. -/
theorem rackExchangedEmptiesTheRack : Obligations.RackExchangedEmptiesTheRack := by
  intro s lane l r h hl hr
  refine station_onLane (u := s.modLane l (fun _ => r)) h hl ?_ (by rw [State.lane_modLane_self])
  rw [exchangeRack_eq, hr]
  exact congrArg (fun u : State => u.laneAnswer .ok l) (State.modLane_congr (s := s.frameDone) rfl)
end

section
/-! The re-resolution pass over the queue of a lane that is closed while one ticket alone is live, ARMED there (R91, R92). -/

namespace Sys2Proof.Machine

open Sys2Proof.Safety

variable {s u : State} {t : Ticket} {l m : Lane} {c : WareClass} {r : Reason}

/-! ### Where the walk ends (R80, R92) -/

theorem walkLane_of_eligible (h : s.eligible t c m = true) (left : Nat) :
    s.walkLane t c r left m = ⟨some m, 6 - left, r⟩ := by
  cases left with
  | zero => exact if_pos h
  | succ left => exact if_pos h

theorem walkLane_of_last (h : s.eligible t c m = false) {left : Nat} (last : (s.lane m).overflow = .runOff ∨ left = 0) :
    s.walkLane t c r left m = ⟨none, 6 - left, .noLane⟩ := by
  cases left with
  | zero => exact if_neg (Bool.eq_false_iff.mp h)
  | succ left =>
    rw [State.walkLane, if_neg (Bool.eq_false_iff.mp h), last.resolve_right (Nat.succ_ne_zero left)]

theorem rewalk_of_lane (h : t.hops < 6) (link : (s.lane l).overflow = .lane m) :
    s.rewalk t c l r = s.walkLane t c r (5 - t.hops) m := by
  unfold State.rewalk
  rw [show 6 - t.hops = (5 - t.hops) + 1 by omega]
  dsimp only
  rw [link]

/-- The links end at the lane left, or the sixth is used. -/
theorem rewalk_of_end (h : (s.lane l).overflow = .runOff ∨ 6 ≤ t.hops) : s.rewalk t c l r = ⟨none, t.hops, .noLane⟩ := by
  unfold State.rewalk; split
  · rfl
  · rename_i left more
    rw [h.resolve_right (by omega)]

theorem rewalk_to (h : t.hops < 6) (link : (s.lane l).overflow = .lane m) (he : s.eligible t c m = true) :
    s.rewalk t c l r = ⟨some m, t.hops + 1, r⟩ := by
  rw [rewalk_of_lane h link, walkLane_of_eligible he, show 6 - (5 - t.hops) = t.hops + 1 by omega]

theorem rewalk_past (h : t.hops < 6) (link : (s.lane l).overflow = .lane m) (he : s.eligible t c m = false)
    (last : (s.lane m).overflow = .runOff ∨ t.hops = 5) : s.rewalk t c l r = ⟨none, t.hops + 1, .noLane⟩ := by
  rw [rewalk_of_lane h link, walkLane_of_last he (last.imp_right (by omega)), show 6 - (5 - t.hops) = t.hops + 1 by omega]

/-! ### The ticket alone -/

/-- The state in which the lane, closed, has let its one ticket go: the channel free, the commitment released, the ticket
ROUTED with no fire planned. -/
def State.lettingGo (s : State) (l : Lane) (t : Ticket) : State := { s with
  lanes := tableMod s.lanes l (fun _ => { s.lane l with state := .closed, committed := (s.lane l).committed - 1 })
  channels := tableMod s.channels l (fun ch => { ch with armed := none })
  tt := { s.tt with belt := [{ t with state := .routed, fireCount := none }] } }

theorem lane_lettingGo (h : m ≠ l) (t : Ticket) : (s.lettingGo l t).lane m = s.lane m := tableMod_get_of_ne _ _ _ _ h

theorem overflow_lettingGo (s : State) (l : Lane) (t : Ticket) :
    ((s.lettingGo l t).lane l).overflow = (s.lane l).overflow := by
  simp [State.lettingGo, State.lane]

theorem eligible_lettingGo (h : m ≠ l) (v : Ticket) : (s.lettingGo l t).eligible v c m = s.eligible v c m := by
  have lane := lane_lettingGo (s := s) h t
  unfold State.eligible State.reachable
  rw [lane, lead_congr (s := s) (congrArg LaneRecord.latency lane) rfl,
    nominalAt_congr (s := s) (congrArg LaneRecord.distance lane) rfl]
  rfl

/-- The ticket given to the overflow lane. -/
def Ticket.regiven (t : Ticket) (s : State) (m : Lane) (c : WareClass) (r : Reason) : Ticket := { t with
  state := .routed, dest := some (.lane m), reason := some r, hops := t.hops + 1, joined := false
  nominal := some (s.nominalAt t c m), span := some (spanOf s t c), fireCount := none, endBounds := none }

/-- The state in which it has then been given there. -/
def State.regiven (s : State) (l m : Lane) (t : Ticket) (c : WareClass) (r : Reason) : State :=
  { (s.lettingGo l t).commit m with tt := { s.tt with belt := [t.regiven s m c r] } }

theorem lane_regiven (h : m ≠ l) : (s.regiven l m t c r).lane m =
    { s.lane m with committed := (s.lane m).committed + 1 } :=
  (tableMod_get_self _ m _).trans (congrArg (fun x : LaneRecord => { x with committed := x.committed + 1 })
    (lane_lettingGo h t))

/-- One ticket alone is live, ARMED at an OPEN lane in that lane's channel. -/
structure ArmedLone (s : State) (l : Lane) (t : Ticket) (a : Armed) (c : WareClass) (r : Reason) : Prop where
  opened : (s.lane l).state = .opened
  belt : s.tt.belt = [t]
  state : t.state = .armed
  dest : t.dest = some (.lane l)
  channel : (s.channel l).armed = some a
  slot : a.slot = t.slot
  cls : t.cls = some c
  reason : t.reason = some r

namespace ArmedLone

variable {a : Armed} (h : ArmedLone s l t a c r)

include h

theorem queued : t.queuedAt l = true := queuedAt_iff.mpr ⟨laneDest_iff.mpr h.dest, .inr h.state⟩

theorem letGo : ((s.modLane l (fun r => { r with state := .closed })).disarmOf t).releaseOf t = s.lettingGo l t := by
  have channel : ((s.modLane l (fun r => { r with state := .closed })).channel l).armed = some a := h.channel
  have belt : ((s.modLane l (fun r => { r with state := .closed })).modChannel l
    (fun ch => { ch with armed := none })).tt.belt = [t] := h.belt
  rw [disarmOf_armed (laneDest_iff.mpr h.dest) channel h.slot, modTicket_lone belt rfl, releaseOf_eq,
    lanes_releaseOf_some (commitment_of_queuedAt h.queued), if_pos h.state]
  unfold State.lettingGo State.modLane State.modChannel
  dsimp only
  rw [tableMod_tableMod, tableMod_congr s.lanes l _ _ rfl]
  rfl

/-- Closing the lane writes the end of the walk from there into the ticket, and attends to the heads. -/
theorem closeLane {e : WalkEnd} (walked : (s.lettingGo l t).rewalk t c l r = e) : s.changeLaneState l .closed =
    (((s.lettingGo l t).writeWalk t.slot c e).crowd t.slot []).attendAll := by
  have belt : (s.enterLaneState l .closed).tt.belt = [t] := h.belt
  have turn : (s.enterLaneState l .closed).reresolve l t.slot [] =
      ((s.lettingGo l t).writeWalk t.slot c e).crowd t.slot [] := by
    unfold State.reresolve
    rw [ticketAt?_lone belt]
    dsimp only
    rw [if_pos h.queued, h.cls, h.reason, show ((s.enterLaneState l .closed).disarmOf t).releaseOf t = s.lettingGo l t from
      h.letGo]
    dsimp only [Option.getD_some]
    rw [walked]
  rw [changeLaneState_leaves (new := .closed) h.opened nofun]
  unfold State.reresolutionPass
  rw [routeQueue_lone belt, if_pos h.queued]
  exact congrArg State.attendAll turn

/-- With its overflow lane eligible, the ticket goes there and is armed. -/
theorem closeLane_moves {planned : Count} (link : (s.lane l).overflow = .lane m) (hm : m ≠ l) (few : t.hops < 6)
    (he : s.eligible t c m = true) (free : (s.channel m).armed = none)
    (hp : planned = s.nominalAt t c m - BitVec.ofNat 16 (s.lead m)) (ahead : isReached s.bcu.count planned = false) :
    s.changeLaneState l .closed = { s with
      lanes := tableMod (tableMod s.lanes l (fun _ => { s.lane l with state := .closed, committed := (s.lane l).committed - 1 })) m
        (fun x => { x with committed := x.committed + 1 })
      channels := tableMod (tableMod s.channels l (fun ch => { ch with armed := none })) m (fun ch => { ch with
        armed := some { slot := t.slot, lead := s.lead m, planned := planned, lateLimit := none } })
      tt := { s.tt with belt := [{ t with
        dest := some (.lane m), hops := t.hops + 1, joined := false
        nominal := some (s.nominalAt t c m), span := some (spanOf s t c), fireCount := some planned
        endBounds := none }] } } := by
  have walked := rewalk_to (r := r) few ((overflow_lettingGo s l t).trans link) ((eligible_lettingGo hm t).trans he)
  have nominal : (s.lettingGo l t).nominalAt t c m = s.nominalAt t c m :=
    nominalAt_congr (congrArg LaneRecord.distance (lane_lettingGo hm t)) rfl t c
  have given : (s.lettingGo l t).writeWalk t.slot c ⟨some m, t.hops + 1, r⟩ = s.regiven l m t c r := by
    unfold State.regiven Ticket.regiven
    rw [← nominal]
    exact modTicket_lone (s := (s.lettingGo l t).commit m) rfl rfl _
  have lead : (s.regiven l m t c r).lead m = s.lead m := by
    refine lead_congr ?_ rfl
    rw [lane_regiven hm]
  have channel : ((s.regiven l m t c r).channel m).armed = none :=
    (congrArg Channel.armed (tableMod_get_of_ne s.channels l m _ hm)).trans free
  have belt : (s.regiven l m t c r).tt.belt = [t.regiven s m c r] := rfl
  rw [h.closeLane walked, given, crowd_lone belt, attendAll_arms_lone belt (queuedAt_iff.mpr ⟨rfl, .inl rfl⟩)
    channel lead hp.symm ahead]
  unfold State.regiven Ticket.regiven State.lettingGo State.commit State.modLane
  rw [← h.state, ← h.reason]

/-- With no lane to go to, it runs off with NO_LANE. -/
theorem closeLane_runsOff {hops : Nat} (walked : (s.lettingGo l t).rewalk t c l r = ⟨none, hops, .noLane⟩)
    (ahead : isReached s.bcu.count (endBoundsOf s t).2 = false) : s.changeLaneState l .closed = { s with
      lanes := tableMod s.lanes l (fun _ => { s.lane l with state := .closed, committed := (s.lane l).committed - 1 })
      channels := tableMod s.channels l (fun ch => { ch with armed := none })
      tt := { s.tt with
        belt := [{ ranOff s .noLane t with hops := hops, fireCount := none }]
        runOffReasons := tableMod s.tt.runOffReasons 3 (fun n => min (n + 1) 65535) } } := by
  rw [h.closeLane walked]
  have noted : (s.lettingGo l t).modTicket t.slot (fun t => { t with hops := hops }) = { s.lettingGo l t with
      tt := { s.tt with belt := [{ t with state := .routed, fireCount := none, hops := hops }] } } :=
    modTicket_lone (s := s.lettingGo l t) rfl rfl _
  have off : (s.lettingGo l t).writeWalk t.slot c ⟨none, hops, .noLane⟩ = { s.lettingGo l t with tt := { s.tt with
      belt := [{ ranOff s .noLane t with hops := hops, fireCount := none }]
      runOffReasons := tableMod s.tt.runOffReasons 3 (fun n => min (n + 1) 65535) } } := by
    show ((s.lettingGo l t).modTicket t.slot (fun t => { t with hops := hops })).sendToRunOff t.slot .noLane = _
    rw [noted]
    exact (sendToRunOff_lone (t := { t with state := .routed, fireCount := none, hops := hops }) (by rfl) rfl .noLane ahead)
  rw [off]
  exact settled_lone rfl rfl _

end ArmedLone

/-! ### The commands (R99 to R101) -/

theorem clampStatus_capacity (n : Nat) : clampStatus (min n 999 != n) = if n ≤ 999 then .ok else .clamped := by
  by_cases within : n ≤ 999
  · rw [if_pos within, Nat.min_eq_left within]; simp [clampStatus]
  · rw [if_neg within, clampStatus, if_pos (bne_iff_ne.mpr (by omega))]

section LaneCommands

variable {lane : Byte} (h : Listening s) (hl : l.val + 1 = lane.toNat)

include h hl

theorem openLane_notInstalled (hd : (s.lane l).distance = 0) :
    exec (.openLane lane) s = .next (answered s .lane (laneReply (s.lane l))) :=
  station_onLane (u := s) h hl (if_pos hd) rfl

theorem openLane_already (hd : (s.lane l).distance ≠ 0) (hs : (s.lane l).state = .opened ∨ (s.lane l).state = .full) :
    exec (.openLane lane) s = .next (answered s .ok (laneReply (s.lane l))) := by
  refine station_onLane (u := s) h hl ((if_neg hd).trans ?_) rfl
  rw [State.lane_frameDone]
  obtain e | e := hs <;> rw [e]

/-- OPEN LANE of an installed lane that is CLOSED or FAULTED does what R99 says. -/
theorem openLane_taken (hd : (s.lane l).distance ≠ 0) (hs : (s.lane l).state = .closed ∨ (s.lane l).state = .faulted)
    {u : State} (hu : s.frameDone.openLane l = u.frameDone) (ha : u.sli.address = s.sli.address := by rfl) :
    exec (.openLane lane) s = .next (answered u .ok (laneReply (u.lane l))) := by
  refine station_onLane (u := u) h hl ((if_neg hd).trans ?_) rfl ha
  rw [← hu, State.lane_frameDone]
  obtain e | e := hs <;> rw [e]

/-- CLOSE LANE where the state it leads to is known. -/
theorem closeLane_taken {r : LaneRecord} {u : State} (hu : s.frameDone.changeLaneState l .closed = u.frameDone)
    (hr : u.lane l = r) (ha : u.sli.address = s.sli.address := by rfl) :
    exec (.closeLane lane) s = .next (answered u .ok (laneReply r)) :=
  station_onLane h hl (congrArg (fun u : State => u.laneAnswer .ok l) hu) hr ha

theorem closeLane_shut (hs : (s.lane l).state ≠ .opened) : exec (.closeLane lane) s =
    .next (answered (s.modLane l (fun r => { r with state := .closed })) .ok
      (laneReply { s.lane l with state := .closed })) := by
  refine station_onLane (u := s.modLane l (fun r => { r with state := .closed })) h hl ?_ (State.lane_modLane_self ..)
  exact congrArg (fun u : State => u.laneAnswer .ok l) (changeLaneState_shut (s := s.frameDone) hs .closed)

theorem closeLane_opened (hs : (s.lane l).state = .opened) (hd : SlotsDistinct s) :
    ∃ t, exec (.closeLane lane) s = .next t ∧
      t.lane l = { s.lane l with state := .closed, committed := (t.lane l).committed } ∧ t.routeQueue l = [] ∧
      t.sli.reply = some { status := .ok, data := laneReply (t.lane l) } ∧ t.cat = s.cat ∧ t.geo = s.geo ∧
      t.bcu = s.bcu := by
  have steady := Steady.changeLaneState s.frameDone l .closed
  exact ⟨_, station_steady h hl rfl steady, lane_changeLaneState s.frameDone l .closed,
    routeQueue_changeLaneState (s := s.frameDone) hd hs nofun, rfl, steady.cat, steady.geo, steady.bcu⟩

/-- SET CAPACITY where the state it leads to is known. -/
theorem setCapacity_taken (cap : Word) {u : State} (hu : s.frameDone.setCapacity l (min cap.toNat 999) = u.frameDone)
    (ha : u.sli.address = s.sli.address := by rfl) : exec (.setCapacity lane cap) s =
      .next (answered u (if cap.toNat ≤ 999 then .ok else .clamped) (laneReply (u.lane l))) := by
  refine station_onLane (u := u) h hl ?_ rfl ha
  dsimp only
  rw [hu, clampStatus_capacity]

/-- SET CAPACITY that fills an OPEN lane. -/
theorem setCapacity_taken_full (cap : Word) (hs : (s.lane l).state = .opened)
    (full : min cap.toNat 999 ≤ (s.lane l).fill) (hd : SlotsDistinct s) :
    ∃ t, exec (.setCapacity lane cap) s = .next t ∧ t.lane l = { s.lane l with
        state := .full, capacity := min cap.toNat 999, committed := (t.lane l).committed } ∧
      t.routeQueue l = [] ∧ t.flagSet .laneFull = true ∧ t.sli.reply = some {
        status := if cap.toNat ≤ 999 then .ok else .clamped, data := laneReply (t.lane l) } := by
  have sized : (s.frameDone.modLane l (fun r => { r with capacity := min cap.toNat 999 })).lane l =
      { s.lane l with capacity := min cap.toNat 999 } := State.lane_modLane_self _ _ _
  have opened := (congrArg LaneRecord.state sized).trans hs
  have steady := (Steady.modLane s.frameDone l (fun r => { r with capacity := min cap.toNat 999 })).trans
    (Steady.changeLaneState _ l .full)
  have lane := lane_changeLaneState (s.frameDone.modLane l (fun r => { r with capacity := min cap.toNat 999 })) l .full
  rw [sized] at lane
  refine ⟨_, station_steady h hl (congrArg₂ (fun (u : State) st => u.laneAnswer st l) (setCapacity_fills hs full)
    (clampStatus_capacity cap.toNat)) steady, lane, routeQueue_changeLaneState hd opened nofun, ?_, rfl⟩
  refine flagSet_changeLaneState ?_
  rw [enterLaneState_full (by rw [opened]; nofun)]
  exact flagSet_raise _ _

end LaneCommands

end Sys2Proof.Machine

open Sys2Proof.Machine Sys2Proof.Safety

/-- Settles O50: each command is one change of its lane's record, with the pass where it takes the lane out of OPEN. -/
theorem laneCommandsChangeState : Obligations.LaneCommandsChangeState := by
  intro s lane h
  refine ⟨fun out cap => ?_, fun l hl => ⟨openLane_notInstalled h hl, openLane_already h hl, fun r hd hs => ⟨?_, ?_⟩,
    closeLane_shut h hl, closeLane_opened h hl, fun t a c r closed opened belt state dest channel slot cls reason hc => ?_,
    fun cap c status hcap hst => ?_⟩⟩
  · exact ⟨station_outside h out _, station_outside h out _, station_outside h out _, station_outside h out _⟩
  · rintro room rfl
    have taken := openLane_taken h hl hd hs (u := s.modLane l (fun _ => { s.lane l with state := .opened, failures := 0 }))
      ((openLane_opens (s := s.frameDone) hs room).trans (State.modLane_congr rfl))
    rwa [State.lane_modLane_self] at taken
  · rintro none rfl
    have taken := openLane_taken h hl hd hs
      (u := (s.modLane l (fun _ => { s.lane l with state := .full, failures := 0 })).raise .laneFull)
      ((openLane_fills (s := s.frameDone) hs none).trans
        (congrArg (fun u : State => u.raise .laneFull) (State.modLane_congr rfl)))
    rwa [State.lane_raise, State.lane_modLane_self] at taken
  · have lone : ArmedLone s.frameDone l t a c r := ⟨opened, belt, state, dest, channel, slot, cls, reason⟩
    subst hc
    refine ⟨fun m planned link hm few he free hp ahead => ?_, fun hops ends ahead => ?_⟩
    · refine closeLane_taken h hl (lone.closeLane_moves link hm few he free hp ahead) ?_
      exact (tableMod_get_of_ne _ m l _ hm.symm).trans (tableMod_get_self s.lanes l _)
    · refine closeLane_taken h hl (lone.closeLane_runsOff ?_ ahead) (tableMod_get_self s.lanes l _)
      obtain ⟨rfl, last⟩ | ⟨rfl, few, m, link, hm, he, last⟩ := ends
      · exact rewalk_of_end (last.imp_left (overflow_lettingGo _ l t).trans)
      · refine rewalk_past few ((overflow_lettingGo _ l t).trans link) ((eligible_lettingGo hm t).trans he) ?_
        exact last.imp_left (congrArg LaneRecord.overflow (lane_lettingGo hm t)).trans
  · subst hcap hst
    refine ⟨fun stays => ?_, fun full room => ?_, fun opened full hd => setCapacity_taken_full h hl cap opened full hd⟩
    · have taken := setCapacity_taken h hl cap (u := s.modLane l (fun r => { r with capacity := min cap.toNat 999 }))
        (setCapacity_stays (s := s.frameDone) stays)
      rwa [State.lane_modLane_self] at taken
    · have taken := setCapacity_taken h hl cap
        (u := s.modLane l (fun r => { r with capacity := min cap.toNat 999, state := .opened }))
        (setCapacity_opens (s := s.frameDone) full room)
      rwa [State.lane_modLane_self] at taken
end

section
/-! WRITE LANES (R96, R97): what each record of a block makes of its lane, and what is refused. -/

namespace Sys2Proof.Machine

open Sys2Proof.Safety

variable {s : State} {l : Lane}

/-! ### One record -/

/-- The configuration a record in range is written as. -/
def LaneWrite.config (w : LaneWrite) : LaneConfig where
  distance := min w.distance.toNat 30000
  latency := w.latency.toNat
  confirmSpan := max 1 (min w.confirmSpan.toNat 1023)
  overflow := (destParam? w.overflow.toNat).getD .runOff
  pullTime := w.pullTime.toNat
  holdDuty := min w.holdDuty.toNat 64
  maxOnTime := max 1 w.maxOnTime.toNat
  recoveryTime := w.recoveryTime.toNat
  polarity := if w.polarity.toNat = 0 then .activeHigh else .activeLow

theorem polarityParam?_of_le {b : Byte} (h : b.toNat ≤ 1) :
    polarityParam? b = some (if b.toNat = 0 then .activeHigh else .activeLow) := by
  unfold polarityParam?
  obtain e | e := Nat.le_one_iff_eq_zero_or_eq_one.mp h <;> rw [e] <;> rfl

theorem polarityParam?_none {b : Byte} (h : 1 < b.toNat) : polarityParam? b = none := by
  unfold polarityParam?
  split
  · omega
  · omega
  · rfl

theorem laneConfig?_of_inRange {w : LaneWrite} (h : w.overflow.toNat ≤ 12 ∧ w.polarity.toNat ≤ 1) :
    laneConfig? w = some (LaneWrite.config w) := by
  obtain ⟨d, -, hd⟩ := destParam?_of_le h.1
  unfold laneConfig? LaneWrite.config
  rw [hd, polarityParam?_of_le h.2]
  rfl

theorem laneConfig?_none {w : LaneWrite} (h : 12 < w.overflow.toNat ∨ 1 < w.polarity.toNat) : laneConfig? w = none := by
  unfold laneConfig?
  obtain out | out := h
  · rw [destParam?_none out]
    cases polarityParam? w.polarity <;> rfl
  · rw [polarityParam?_none out]
    cases destParam? w.overflow.toNat <;> rfl

theorem number_overflow {w : LaneWrite} (h : w.overflow.toNat ≤ 12) :
    (LaneWrite.config w).overflow.number = w.overflow.toNat := by
  obtain ⟨d, hn, hd⟩ := destParam?_of_le h
  rw [LaneWrite.config, hd]
  exact hn

/-- No value is clamped where each lies in its range. -/
theorem laneClamped_config (w : LaneWrite) : laneClamped (LaneWrite.config w) w = false ↔
    w.distance.toNat ≤ 30000 ∧ 1 ≤ w.confirmSpan.toNat ∧ w.confirmSpan.toNat ≤ 1023 ∧ w.holdDuty.toNat ≤ 64 ∧
      1 ≤ w.maxOnTime.toNat := by
  simp only [laneClamped, LaneWrite.config, Bool.or_eq_false_iff, bne_eq_false_iff_eq]
  omega

/-! ### A block -/

/-- A block in range is decoded record by record. -/
theorem decodeBlock_map {α β : Type} {f : α → Option β} {g : α → β} {rs : List α} (h : ∀ r ∈ rs, f r = some (g r)) (i : Nat) :
    decodeBlock f i rs = .ok (rs.map g) := by
  induction rs generalizing i with
  | nil => rfl
  | cons r rs ih =>
    rw [decodeBlock, h r List.mem_cons_self]
    dsimp only
    rw [ih (fun x hx => h x (List.mem_cons_of_mem _ hx))]
    rfl

theorem any_zip_map {α β : Type} (g : α → β) (p : β → α → Bool) (rs : List α) :
    ((rs.map g).zip rs).any (fun x => p x.1 x.2) = rs.any (fun r => p (g r) r) := by
  induction rs with
  | nil => rfl
  | cons r rs ih => simp only [List.map_cons, List.zip_cons_cons, List.any_cons, ih]

theorem clampStatus_any {α : Type} (p : α → Bool) (rs : List α) : clampStatus (rs.any p) = .ok ↔ ∀ r ∈ rs, p r = false := by
  unfold clampStatus
  split
  · rename_i some
    obtain ⟨r, hr, hp⟩ := List.any_eq_true.mp some
    exact ⟨nofun, fun all => absurd hp (ne_true_of_eq_false (all r hr))⟩
  · rename_i none
    exact ⟨fun _ r hr => Bool.eq_false_iff.mpr (fun hp => none (List.any_eq_true.mpr ⟨r, hr, hp⟩)), fun _ => rfl⟩

/-! ### The lanes after it -/

theorem configureFrom_cons {n : Nat} (h : l.val + 1 = n) (s : State) (c : LaneConfig) (cs : List LaneConfig) :
    s.configureFrom n (c :: cs) = (s.modLane l (fun r => r.configure c)).configureFrom (n + 1) cs := by
  rw [State.configureFrom, laneParam?_eq h]

/-- A lane parameter within 1 to 12 names a lane. -/
theorem exists_lane {n : Nat} (h1 : 1 ≤ n) (h2 : n ≤ 12) : ∃ l : Lane, l.val + 1 = n :=
  ⟨⟨n - 1, by omega⟩, Nat.sub_add_cancel h1⟩

theorem configureFrom_frameDone (s : State) (n : Nat) (cs : List LaneConfig) :
    s.frameDone.configureFrom n cs = (s.configureFrom n cs).frameDone := by
  induction cs generalizing s n with
  | nil => rfl
  | cons c cs ih =>
    unfold State.configureFrom; split
    · exact ih (s.modLane _ (fun r => r.configure c)) _
    · exact ih s _

theorem configureFrom_eq (s : State) (n : Nat) (cs : List LaneConfig) :
    s.configureFrom n cs = { s with lanes := (s.configureFrom n cs).lanes } := by
  obtain ⟨v, e⟩ := TableSound.configureFrom_lanes s n cs
  rw [e]

theorem lane_configureFrom_outside {n : Nat} {cs : List LaneConfig} (h1 : 1 ≤ n) (h2 : n + cs.length ≤ 13)
    (h : l.val + 1 < n ∨ n + cs.length ≤ l.val + 1) : (s.configureFrom n cs).lane l = s.lane l := by
  induction cs generalizing s n with
  | nil => rfl
  | cons c cs ih =>
    rw [List.length_cons] at h h2
    obtain ⟨m, hm⟩ := exists_lane h1 (by omega)
    have other : l ≠ m := by rintro rfl; omega
    rw [configureFrom_cons hm, ih (by omega) (by omega) (by omega), State.lane_modLane, if_neg other]

theorem lane_configureFrom_at {n : Nat} {cs : List LaneConfig} {c : LaneConfig} (h1 : 1 ≤ n) (h2 : n + cs.length ≤ 13)
    (h : n ≤ l.val + 1) (hc : cs[l.val + 1 - n]? = some c) : (s.configureFrom n cs).lane l = (s.lane l).configure c := by
  induction cs generalizing s n with
  | nil => cases hc
  | cons x cs ih =>
    rw [List.length_cons] at h2
    obtain ⟨m, hm⟩ := exists_lane h1 (by omega)
    rw [configureFrom_cons hm]
    by_cases e : l = m
    · subst e
      rw [hm, Nat.sub_self] at hc
      obtain rfl := Option.some.inj hc
      rw [lane_configureFrom_outside (by omega) (by omega) (.inl (by omega)), State.lane_modLane_self]
    · have later : n < l.val + 1 := Nat.lt_of_le_of_ne h (fun same => e (Fin.ext (by omega)))
      rw [show l.val + 1 - n = (l.val + 1 - (n + 1)) + 1 by omega, List.getElem?_cons_succ] at hc
      rw [ih (by omega) (by omega) later hc, State.lane_modLane, if_neg e]

/-- What a record in range makes of its lane. -/
theorem configure_config (r : LaneRecord) (w : LaneWrite) : r.configure (LaneWrite.config w) = { r with
    state := if w.distance.toNat = 0 then .closed else r.state
    distance := min w.distance.toNat 30000
    latency := w.latency.toNat
    confirmSpan := max 1 (min w.confirmSpan.toNat 1023)
    overflow := (r.configure (LaneWrite.config w)).overflow
    pullTime := w.pullTime.toNat
    holdDuty := min w.holdDuty.toNat 64
    maxOnTime := max 1 w.maxOnTime.toNat
    recoveryTime := w.recoveryTime.toNat
    polarity := if w.polarity.toNat = 0 then .activeHigh else .activeLow } := by
  have zero : min w.distance.toNat 30000 = 0 ↔ w.distance.toNat = 0 := by omega
  simp only [LaneRecord.configure, LaneWrite.config, zero]

/-! ### The command -/

section Command

variable {first : Byte} {rs : List LaneWrite} (h : Listening s) (h1 : 1 ≤ rs.length) (h2 : rs.length ≤ 64)

include h h1 h2

theorem writeLanes_notInMode (hm : s.mode ≠ .setup) :
    exec (.writeLanes first rs) s = .next (answered s .notInMode []) := by
  refine State.station_answered h ?_ rfl
  rw [cmdWriteLanes, blockCountOk_of h1 h2]
  exact if_pos hm

variable (hm : s.mode = .setup)

include hm

theorem writeLanes_outside (out : first.toNat = 0 ∨ 13 < first.toNat + rs.length) :
    exec (.writeLanes first rs) s = .next (answered s .badParam [first]) := by
  have outside : blockInside 1 12 first.toNat rs.length = false := by simp [blockInside]; omega
  refine State.station_answered h ?_ rfl
  rw [cmdWriteLanes, blockCountOk_of h1 h2, State.mode_frameDone, hm, outside]
  exact congrArg (fun b => (s.frameDone, ({ status := .badParam, data := [b] } : Answer))) (byteOf_toNat first)

variable (h3 : 1 ≤ first.toNat) (h4 : first.toNat + rs.length ≤ 13)

include h3 h4

theorem writeLanes_failed {pre post : List LaneWrite} {w : LaneWrite} (hrs : rs = pre ++ w :: post)
    (hpre : ∀ x ∈ pre, x.overflow.toNat ≤ 12 ∧ x.polarity.toNat ≤ 1) (hw : 12 < w.overflow.toNat ∨ 1 < w.polarity.toNat) :
    exec (.writeLanes first rs) s = .next (answered s .badParam [first + BitVec.ofNat 8 pre.length]) := by
  have inside : blockInside 1 12 first.toNat rs.length = true := by simp [blockInside]; omega
  have failed : decodeBlock laneConfig? first.toNat rs = .error (first.toNat + pre.length) := hrs ▸
    decodeBlock_error laneConfig? first.toNat pre w post (fun x hx => by rw [laneConfig?_of_inRange (hpre x hx)]; rfl)
      (laneConfig?_none hw)
  have index : byteOf (first.toNat + pre.length) = first + BitVec.ofNat 8 pre.length := by
    rw [byteOf, BitVec.ofNat_add, BitVec.ofNat_toNat, BitVec.setWidth_eq]
  refine State.station_answered h ?_ rfl
  rw [cmdWriteLanes, blockCountOk_of h1 h2, State.mode_frameDone, hm, inside, failed, ← index]
  rfl

theorem writeLanes_applied (hrs : ∀ w ∈ rs, w.overflow.toNat ≤ 12 ∧ w.polarity.toNat ≤ 1) :
    exec (.writeLanes first rs) s = .next (answered
      { s with lanes := (s.configureFrom first.toNat (rs.map LaneWrite.config)).lanes }
      (clampStatus (rs.any (fun w => laneClamped (LaneWrite.config w) w))) [first, BitVec.ofNat 8 rs.length]) := by
  have inside : blockInside 1 12 first.toNat rs.length = true := by simp [blockInside]; omega
  refine State.station_answered h ?_ rfl
  rw [cmdWriteLanes, blockCountOk_of h1 h2, State.mode_frameDone, hm, inside,
    decodeBlock_map (fun w hw => laneConfig?_of_inRange (hrs w hw)), ← any_zip_map]
  exact congrArg (fun u : State => (u, _)) ((configureFrom_frameDone s _ _).trans
    (congrArg State.frameDone (configureFrom_eq s _ _)))

end Command
end Sys2Proof.Machine

open Sys2Proof.Machine Sys2Proof.Safety

/-- Settles O48: the tests in turn, then each record of the block written into its own lane. -/
theorem writeLanesConfigures : Obligations.WriteLanesConfigures := by
  intro s first rs h h1 h2
  refine ⟨writeLanes_notInMode h h1 h2, writeLanes_outside h h1 h2, fun pre post w hm h3 h4 hrs hpre hw =>
    writeLanes_failed h h1 h2 hm h3 h4 hrs hpre hw, fun hm h3 h4 hrs => ?_⟩
  refine ⟨s.configureFrom first.toNat (rs.map LaneWrite.config), _, writeLanes_applied h h1 h2 hm h3 h4 hrs, ?_, ?_,
    fun l out => ?_, fun l w from' hw => ?_⟩
  · unfold clampStatus; split
    · exact .inr rfl
    · exact .inl rfl
  · rw [clampStatus_any]
    exact forall₂_congr (fun w _ => laneClamped_config w)
  · exact lane_configureFrom_outside h3 (by rwa [List.length_map]) (by rwa [List.length_map])
  · have written := lane_configureFrom_at (s := s) (l := l) h3 (cs := rs.map LaneWrite.config) (by rwa [List.length_map]) from'
      (by rw [List.getElem?_map, hw]; rfl)
    rw [written]
    exact ⟨configure_config _ w, number_overflow (hrs w (List.mem_of_getElem? hw)).1⟩
end

section
/-! A sighting at a lane: the oldest ticket of the confirm list is retired SORTED, or a stray is counted; either way the
rack holds one ware more (R103 to R106, R110). -/

namespace Sys2Proof.Machine

open Sys2Proof.Safety

variable {s : State} {l : Lane} {t : Ticket} {rest : List Ticket}

theorem exec_laneEyeLeads (h : Attending s) : exec (.laneEyeLeadingEdge l) s = .next (s.sightLane l) := by
  have sighted : s.laneEyeLeads l = s.sightLane l := by
    unfold State.laneEyeLeads; split
    · exact absurd ‹_› h.2
    all_goals rfl
  exact (State.event_running h.1 (fun s => s.laneEyeLeads l)).trans (congrArg _ sighted)

/-- A ware comes to a rack that it does not fill (R103). -/
theorem addFill_room (room : (s.lane l).state ≠ .opened ∨ (s.lane l).fill + 1 < (s.lane l).capacity)
    (few : (s.lane l).fill < 999) : s.addFill l = s.modLane l (fun r => { r with fill := r.fill + 1 }) := by
  have rises : satInc 999 (s.lane l).fill = (s.lane l).fill + 1 := Nat.min_eq_left few
  unfold State.addFill; dsimp only
  rw [State.lane_modLane_self, rises, if_neg]
  · exact State.modLane_congr (congrArg (fun n => { s.lane l with fill := n }) rises)
  · rintro ⟨opened, full⟩
    exact room.elim (fun h => h opened) (fun h => absurd full (Nat.not_le.mpr h))

/-- The ware that fills an OPEN lane's rack makes the lane FULL. -/
theorem addFill_full (opened : (s.lane l).state = .opened) (full : (s.lane l).capacity ≤ (s.lane l).fill + 1)
    (few : (s.lane l).fill < 999) :
    s.addFill l = (s.modLane l (fun r => { r with fill := r.fill + 1 })).changeLaneState l .full := by
  have rises : satInc 999 (s.lane l).fill = (s.lane l).fill + 1 := Nat.min_eq_left few
  unfold State.addFill; dsimp only
  rw [State.lane_modLane_self, rises, if_pos ⟨opened, full⟩]
  exact congrArg (fun u : State => u.changeLaneState l .full)
    (State.modLane_congr (congrArg (fun n => { s.lane l with fill := n }) rises))

/-! ### The oldest ticket of the confirm list (R104, R105) -/

theorem commitment_of_firedAt (h : t.firedAt l = true) : t.commitment = some l := by
  obtain ⟨dest, state⟩ := Bool.and_eq_true_iff.mp h
  unfold Ticket.commitment
  obtain e | e := Bool.or_eq_true_iff.mp state <;> rw [eq_of_beq e] <;> exact eq_of_beq dest

theorem mem_confirmList : t ∈ s.confirmList l ↔ t ∈ s.tt.belt ∧ t.firedAt l = true := List.mem_filter

/-- What the sighting of the oldest ticket makes of the lane, once the ticket is retired. -/
theorem sightLane_confirms (h : s.confirmList l = t :: rest) {u : State} (hu : s.retire t.slot .sorted = u)
    (hl : u.lanes = tableMod s.lanes l (fun r => { r with committed := r.committed - 1 }))
    (room : (s.lane l).state ≠ .opened ∨ (s.lane l).fill + 1 < (s.lane l).capacity) (few : (s.lane l).fill < 999) :
    s.sightLane l = { u with lanes := tableMod s.lanes l (fun r =>
      { r with committed := r.committed - 1, failures := 0, fill := r.fill + 1 }) } := by
  have lane : (u.modLane l (fun r => { r with failures := 0 })).lane l =
      { s.lane l with committed := (s.lane l).committed - 1, failures := 0 } := by
    rw [State.lane_modLane_self, State.lane, hl, tableMod_get_self]; rfl
  have sighted : s.sightLane l = (u.modLane l (fun r => { r with failures := 0 })).addFill l := by
    unfold State.sightLane; rw [h, ← hu]
  rw [sighted, addFill_room (by rw [lane]; exact room) (by rw [lane]; exact few), State.modLane_modLane, State.modLane, hl,
    tableMod_tableMod]

/-- The ticket table once the last live ticket is retired. -/
def lastRetired (s : State) (t : Ticket) (o : TicketOutcome) : TicketTable := { s.tt with
  belt := []
  tallies := tableMod s.tt.tallies (tallyIndex t.outlet o) (fun n => min (n + 1) 65535) }

/-- The retirement of the last live ticket in DRAIN, held by no other block, makes the mode SETUP (R158, R163). -/
theorem retire_last {o : TicketOutcome} (hb : s.tt.belt = [t]) (hm : s.mode = .drain) (hu : Unheld s t) :
    s.retire t.slot o = ({ s with
      tt := lastRetired s t o, lanes := (s.releaseOf t).lanes } : State).enterSetup := by
  have alone : without s t.slot = [] := by simp [without, hb]
  unfold State.retire
  rw [ticketAt?_lone hb]
  dsimp only
  rw [remove_eq, alone, State.disarmOf_of_unarmed s t hu.2, if_neg hu.1]
  exact if_pos ⟨hm, rfl⟩

/-- A drain's end says nothing of the lane records after it. -/
theorem drainEnded_lanes {u : State} (h : DrainEnded s u) (v : Vector LaneRecord 12) :
    DrainEnded s { u with lanes := v } where
  mode := h.mode
  belt := h.belt
  strokesEnd := h.strokesEnd
  othersStay := h.othersStay
  restStays := congrArg (fun w : State => { w with lanes := v }) h.restStays

/-! ### Strays (R105, R106) -/

theorem sightLane_stray (h : s.confirmList l = []) :
    s.sightLane l = (s.modLane l (fun r => { r with strays := min (r.strays + 1) 65535 })).addFill l := by
  unfold State.sightLane; rw [h]; rfl

theorem sightLane_stray_room (h : s.confirmList l = [])
    (room : (s.lane l).state ≠ .opened ∨ (s.lane l).fill + 1 < (s.lane l).capacity) (few : (s.lane l).fill < 999) :
    s.sightLane l = s.modLane l (fun r => { r with fill := r.fill + 1, strays := min (r.strays + 1) 65535 }) := by
  have lane := State.lane_modLane_self s l (fun r => { r with strays := min (r.strays + 1) 65535 })
  rw [sightLane_stray h, addFill_room (by rw [lane]; exact room) (by rw [lane]; exact few), State.modLane_modLane]

/-- The lane's two counters after a stray. -/
def State.strayCounted (s : State) (l : Lane) : State :=
  s.modLane l (fun r => { r with fill := r.fill + 1, strays := min (r.strays + 1) 65535 })

theorem lane_strayCounted (s : State) (l : Lane) : (s.strayCounted l).lane l =
    { s.lane l with fill := (s.lane l).fill + 1, strays := min ((s.lane l).strays + 1) 65535 } :=
  State.lane_modLane_self s l _

theorem sightLane_stray_full (h : s.confirmList l = []) (opened : (s.lane l).state = .opened)
    (full : (s.lane l).capacity ≤ (s.lane l).fill + 1) (few : (s.lane l).fill < 999) :
    s.sightLane l = (s.strayCounted l).changeLaneState l .full := by
  have lane := State.lane_modLane_self s l (fun r => { r with strays := min (r.strays + 1) 65535 })
  rw [sightLane_stray h, addFill_full (by rw [lane]; exact opened) (by rw [lane]; exact full) (by rw [lane]; exact few),
    State.modLane_modLane, State.strayCounted]

theorem exec_laneEyeLeads_setup (h : Running s) (hm : s.mode = .setup) : exec (.laneEyeLeadingEdge l) s = .next s := by
  have unmoved : s.laneEyeLeads l = s := by unfold State.laneEyeLeads; rw [hm]
  exact (State.event_running h (fun s => s.laneEyeLeads l)).trans (congrArg _ unmoved)

end Sys2Proof.Machine

open Sys2Proof.Machine Sys2Proof.Safety

/-- Settles O31: the retirement, then the lane's failures and fill. -/
theorem laneSightingConfirmsOldest : Obligations.LaneSightingConfirmsOldest := by
  intro s l t rest running hd confirms unheld room few
  obtain ⟨live, fired⟩ := mem_confirmList.mp (confirms ▸ List.mem_cons_self : t ∈ s.confirmList l)
  have released := lanes_releaseOf_some (s := s) (commitment_of_firedAt fired)
  rw [exec_laneEyeLeads running]
  refine ⟨fun goesOn => ?_, fun drain belt => ?_⟩
  · have retired := State.retire_unheld .sorted (State.ticketAt?_of_mem hd live) unheld goesOn
    rw [sightLane_confirms confirms retired released room few, releaseOf_eq]
    rfl
  · have retired := retire_last (o := .sorted) belt drain unheld
    have recovery : ∀ m, ((s.releaseOf t).lanes.get m).recoveryTime = (s.lane m).recoveryTime := fun m =>
      (congrArg LaneRecord.recoveryTime (State.lane_releaseOf s t m) :)
    have ended := drainEnded_enterSetup (p := s) (i := s.sli) (j := s.sli) (tt := lastRetired s t .sorted) recovery rfl
    obtain ⟨d, c, e⟩ := enterSetup_eq { s with tt := lastRetired s t .sorted, lanes := (s.releaseOf t).lanes }
    rw [e] at retired ended
    exact ⟨_, congrArg _ (sightLane_confirms confirms retired released room few), drainEnded_lanes ended _, rfl, rfl, rfl, rfl⟩

/-- Settles O32: two counters of the lane's record, and the entry into FULL with its pass. -/
theorem laneStraysFillTheRack : Obligations.LaneStraysFillTheRack := by
  intro s l
  refine ⟨fun running stray room few => ?_, fun running hd stray opened full few => ?_, exec_laneEyeLeads_setup, rfl⟩
  · rw [exec_laneEyeLeads running, sightLane_stray_room stray room few]
  · have steady := (Steady.modLane s l _).trans (Steady.changeLaneState (s.strayCounted l) l .full)
    have still : ((s.strayCounted l).lane l).state = .opened := by rw [lane_strayCounted]; exact opened
    have lane := lane_changeLaneState (s.strayCounted l) l .full
    rw [lane_strayCounted] at lane
    refine ⟨_, (exec_laneEyeLeads running).trans (congrArg _ (sightLane_stray_full stray opened full few)),
      by rw [lane], by rw [lane], by rw [lane], by rw [lane], flagSet_changeLaneState ?_,
      routeQueue_changeLaneState hd still nofun, steady.cat, steady.geo, steady.bcu, steady.rli, steady.em, steady.carrier⟩
    rw [enterLaneState_full (by rw [still]; nofun)]
    exact flagSet_raise _ _
end

section
/-! A confirm window that closes unseen: the ticket turns DOUBT, and its lane counts a failure, which may take it out of
service (R108 to R111). -/

namespace Sys2Proof.Machine

open Sys2Proof.Safety

variable {s v : State} {l : Lane} {t x : Ticket} {free : Prop}

/-! ### A ticket that rests -/

theorem Rests.alike (h : Rests x free s) (hb : v.tt.belt = s.tt.belt := by rfl) (hc : v.channels = s.channels := by rfl) :
    Rests x free v where
  slots := by have := h.slots; unfold SlotsDistinct at this ⊢; rwa [hb]
  record := hb ▸ h.record
  unarmed := by unfold State.channel; rw [hc]; exact h.unarmed

theorem channels_enterLaneState (s : State) (l : Lane) (new : LaneState) : (s.enterLaneState l new).channels = s.channels := by
  unfold State.enterLaneState
  cases new with
  | full => dsimp only; split <;> rfl
  | faulted => dsimp only; split <;> rfl
  | opened => rfl
  | closed => rfl

theorem Rests.changeLaneState (hx : x.loose = false) (h : Rests x free s) (l : Lane) (new : LaneState) :
    Rests x free (s.changeLaneState l new) := by
  have entered : Rests x free (s.enterLaneState l new) :=
    h.alike (congrArg TicketTable.belt (tt_enterLaneState s l new)) (channels_enterLaneState s l new)
  rw [changeLaneState_eq_enter]
  exact ite_keeps (P := Rests x free) (entered.moves hx (Moves.reresolutionPass _ l)) entered

/-! ### Failures (R110, R111) -/

theorem countFailure_stays (few : (s.lane l).failures < 15) (h : (s.lane l).failures + 1 < s.geo.faultLimit ∨
    (s.lane l).state = .closed ∨ (s.lane l).state = .faulted) :
    s.countFailure l = s.modLane l (fun r => { r with failures := r.failures + 1 }) := by
  have rises : satInc 15 (s.lane l).failures = (s.lane l).failures + 1 := Nat.min_eq_left few
  unfold State.countFailure; dsimp only
  rw [State.lane_modLane_self, rises, if_neg]
  · exact State.modLane_congr (congrArg (fun n => { s.lane l with failures := n }) rises)
  · rintro ⟨serves, limit⟩
    obtain below | closed | faulted := h
    · exact absurd limit (Nat.not_le.mpr below)
    · rw [closed] at serves; exact serves.elim nofun nofun
    · rw [faulted] at serves; exact serves.elim nofun nofun

theorem countFailure_faults (few : (s.lane l).failures < 15) (limit : s.geo.faultLimit ≤ (s.lane l).failures + 1)
    (serves : (s.lane l).state = .opened ∨ (s.lane l).state = .full) :
    s.countFailure l = (s.modLane l (fun r => { r with failures := r.failures + 1 })).changeLaneState l .faulted := by
  have rises : satInc 15 (s.lane l).failures = (s.lane l).failures + 1 := Nat.min_eq_left few
  unfold State.countFailure; dsimp only
  rw [State.lane_modLane_self, rises, if_pos ⟨serves, limit⟩]
  exact congrArg (fun u : State => u.changeLaneState l .faulted)
    (State.modLane_congr (congrArg (fun n => { s.lane l with failures := n }) rises))

/-! ### The ticket in DOUBT (R109) -/

def Ticket.doubted (t : Ticket) : Ticket := { t with state := .doubt, closeCount := none }

/-- The ticket in DOUBT and its commitment released, before the failure is counted. -/
def State.doubting (s : State) (l : Lane) (t : Ticket) : State :=
  (s.modLane l (fun r => { r with committed := r.committed - 1 })).modTicket t.slot Ticket.doubted

/-- The end window stored at the entry into DOUBT (R144). -/
def doubtOf (s : State) (t : Ticket) : Ticket := { t.doubted with endBounds := some (endBoundsOf s t) }

theorem ticketAt?_storeBounds (hd : SlotsDistinct v) (hx : x ∈ v.tt.belt) :
    (v.storeBounds x.slot).ticketAt? x.slot = some { x with endBounds := some (v.endWindow x) } :=
  State.ticketAt?_of_mem (t := { x with endBounds := some (v.endWindow x) }) ((Steady.storeBounds v x.slot).distinct hd)
    (List.mem_map.mpr ⟨x, hx, if_pos rfl⟩)

theorem routeQueue_storeBounds_nil {k : Slot} (h : v.routeQueue l = []) : (v.storeBounds k).routeQueue l = [] :=
  (routeQueue_modTicket v k l (f := fun t => { t with endBounds := some (v.endWindow t) }) (fun _ => rfl)).trans
    (by rw [h]; rfl)

/-- A fired ticket of the lane, its end window ahead. -/
structure Closing (s : State) (l : Lane) (t : Ticket) : Prop where
  slots : SlotsDistinct s
  live : t ∈ s.tt.belt
  fired : t.firedAt l = true
  ahead : isReached s.bcu.count (endBoundsOf s t).2 = false

namespace Closing

variable (h : Closing s l t)

include h

theorem rests : Rests t.doubted (∀ m a, (s.channel m).armed = some a → a.slot ≠ t.slot) (s.doubting l t) where
  slots := (Steady.modTicket (s.modLane l _) t.slot Ticket.doubted).distinct h.slots
  record := ⟨t.fireCount, List.mem_map.mpr ⟨t, h.live, if_pos rfl⟩, fun _ => rfl⟩
  unarmed := id

theorem storeBounds {p : State} (hb : p.tt.belt = s.tt.belt) (hg : p.geo = s.geo) :
    (p.modTicket t.slot Ticket.doubted).storeBounds t.slot = p.modTicket t.slot (fun _ => doubtOf s t) := by
  have distinct : SlotsDistinct p := by have := h.slots; unfold SlotsDistinct at this ⊢; rwa [hb]
  refine (State.modTicket_modTicket p t.slot Ticket.doubted _ (fun _ => rfl)).trans
    (modTicket_congr distinct (hb ▸ h.live) rfl ?_)
  unfold State.endWindow doubtOf endBoundsOf
  rw [← hg]
  rfl

/-- A close that leaves the ticket's record to stand is over once the end window is stored. -/
theorem closeConfirm (hv : (if t.joined = true then s.doubting l t else (s.doubting l t).countFailure l) = v)
    (rests : Rests t.doubted free v) (hg : v.geo = s.geo) (hb : v.bcu = s.bcu) :
    s.closeConfirm t.slot = v.storeBounds t.slot := by
  have commitment := commitment_of_firedAt h.fired
  have begun : (s.releaseOf t).modTicket t.slot (fun t => { t with state := .doubt, closeCount := none }) = s.doubting l t := by
    unfold State.releaseOf; rw [commitment]; rfl
  obtain ⟨c, live, -⟩ := rests.record
  have stored := ticketAt?_storeBounds rests.slots live
  have ahead : (v.storeBounds t.slot).endReached t.slot = false := by
    refine endReached_eq_false stored rfl ?_
    have ahead := h.ahead
    unfold endBoundsOf at ahead
    rw [← hg, ← hb] at ahead
    exact ahead
  unfold State.closeConfirm
  rw [State.ticketAt?_of_mem h.slots h.live]
  dsimp only
  rw [commitment]
  dsimp only
  rw [begun, hv, ahead]
  rfl

/-- The close of a window where the state after the failure is counted is the ticket's own change and others'. -/
theorem closeConfirm_plain {p : State} (hv : (if t.joined = true then s.doubting l t else (s.doubting l t).countFailure l) =
      p.modTicket t.slot Ticket.doubted) (hb : p.tt.belt = s.tt.belt) (hc : p.channels = s.channels) (hg : p.geo = s.geo)
    (hu : p.bcu = s.bcu) : s.closeConfirm t.slot = p.modTicket t.slot (fun _ => doubtOf s t) := by
  have rests := h.rests.alike (v := p.modTicket t.slot Ticket.doubted)
    (by rw [State.belt_modTicket, hb]; rfl) hc
  rw [h.closeConfirm hv rests hg hu, h.storeBounds hb hg]

theorem closeConfirm_joined (joined : t.joined = true) : s.closeConfirm t.slot =
    (s.modLane l (fun r => { r with committed := r.committed - 1 })).modTicket t.slot (fun _ => doubtOf s t) :=
  h.closeConfirm_plain (if_pos joined) rfl rfl rfl rfl

end Closing

theorem modLane_doubting (s : State) (l : Lane) (t : Ticket) (f : LaneRecord → LaneRecord) : (s.doubting l t).modLane l f =
    (s.modLane l (fun r => f { r with committed := r.committed - 1 })).modTicket t.slot Ticket.doubted :=
  congrArg (fun u : State => u.modTicket t.slot Ticket.doubted) (State.modLane_modLane s l _ f)

theorem lane_doubting (s : State) (l : Lane) (t : Ticket) :
    (s.doubting l t).lane l = { s.lane l with committed := (s.lane l).committed - 1 } := State.lane_modLane_self _ _ _

namespace Closing

variable (h : Closing s l t)

include h

theorem closeConfirm_counted (single : t.joined = false) (few : (s.lane l).failures < 15)
    (stays : (s.lane l).failures + 1 < s.geo.faultLimit ∨ (s.lane l).state = .closed ∨ (s.lane l).state = .faulted) :
    s.closeConfirm t.slot = (s.modLane l (fun r => { r with
      committed := r.committed - 1, failures := r.failures + 1 })).modTicket t.slot (fun _ => doubtOf s t) := by
  have lane := lane_doubting s l t
  refine h.closeConfirm_plain ((if_neg (ne_true_of_eq_false single)).trans ?_) rfl rfl rfl rfl
  rw [countFailure_stays (by rw [lane]; exact few) (by rw [lane]; exact stays), modLane_doubting]

end Closing

/-! ### The fault limit reached (R111) -/

/-- The state with the failure counted. -/
def State.counted (s : State) (l : Lane) (t : Ticket) : State :=
  (s.doubting l t).modLane l (fun r => { r with failures := r.failures + 1 })

/-- The state once the failure has taken the lane out of service. -/
def State.faulting (s : State) (l : Lane) (t : Ticket) : State :=
  (s.counted l t).changeLaneState l .faulted

theorem lane_counted (s : State) (l : Lane) (t : Ticket) :
    (s.counted l t).lane l =
      { s.lane l with committed := (s.lane l).committed - 1, failures := (s.lane l).failures + 1 } := by
  rw [State.counted, State.lane_modLane_self, lane_doubting]

theorem steady_faulting (s : State) (l : Lane) (t : Ticket) : Steady s (s.faulting l t) :=
  (((Steady.modLane s l _).trans (Steady.modTicket _ t.slot Ticket.doubted)).trans (Steady.modLane _ l _)).trans
    (Steady.changeLaneState _ l .faulted)

theorem lane_faulting (s : State) (l : Lane) (t : Ticket) : (s.faulting l t).lane l = { s.lane l with
    state := .faulted, failures := (s.lane l).failures + 1, committed := ((s.faulting l t).lane l).committed } := by
  have lane := lane_changeLaneState (s.counted l t) l .faulted
  rwa [lane_counted] at lane

theorem flagSet_faulting (serves : (s.lane l).state = .opened ∨ (s.lane l).state = .full) (t : Ticket) :
    (s.faulting l t).flagSet .laneFault = true := by
  have sound : (s.lane l).state ≠ .faulted := by obtain e | e := serves <;> rw [e] <;> nofun
  refine flagSet_changeLaneState ?_
  rw [enterLaneState_faulted (by rw [lane_counted]; exact sound)]
  exact flagSet_raise _ _

/-! ### What a lane's commitments are (R27) -/

theorem commitment_eq_some : t.commitment = some l ↔ t.queuedAt l = true ∨ t.firedAt l = true := by
  unfold Ticket.commitment Ticket.queuedAt Ticket.firedAt
  cases t.state <;> simp

/-- With its route queue empty, a lane has the commitments of its confirm list alone. -/
theorem committed_of_queue_empty (h : CommitmentsKept s) (empty : s.routeQueue l = []) :
    (s.lane l).committed = (s.confirmList l).length := by
  have waits := List.filter_eq_nil_iff.mp empty
  rw [h.counts, commitmentsAt, State.confirmList, ← List.countP_eq_length_filter]
  refine List.countP_congr (fun u hu => ?_)
  rw [beq_iff_eq, commitment_eq_some]
  exact or_iff_right (waits u hu)

namespace Closing

variable (h : Closing s l t)

include h

/-- The ticket leaves the confirm list, which the others keep. -/
theorem confirmList_doubting : ((s.doubting l t).confirmList l).length + 1 = (s.confirmList l).length := by
  have distinct : s.tt.belt.Nodup := h.slots.of_map _
  have same := (List.perm_cons_erase h.live).countP_eq
  have others : ∀ u ∈ s.tt.belt.erase t, u.slot ≠ t.slot := fun u hu e => by
    obtain ⟨hne, live⟩ := distinct.mem_erase_iff.mp hu
    have found := State.ticketAt?_of_mem h.slots live
    rw [e, State.ticketAt?_of_mem h.slots h.live] at found
    exact hne (Option.some.inj found).symm
  have doubted : (t.doubted).firedAt l = false := by simp [Ticket.firedAt, Ticket.doubted]
  show ((s.tt.belt.map _).filter _).length + 1 = (s.tt.belt.filter _).length
  rw [← List.countP_eq_length_filter, ← List.countP_eq_length_filter, List.countP_map, same, same, List.countP_cons,
    List.countP_cons, if_pos h.fired, Function.comp_apply, if_pos rfl, doubted]
  refine congrArg (· + 1) (List.countP_congr (fun u hu => ?_))
  rw [Function.comp_apply, if_neg (others u hu)]

section Faults

variable (single : t.joined = false) (few : (s.lane l).failures < 15)
  (limit : s.geo.faultLimit ≤ (s.lane l).failures + 1)

theorem rests_faulting : Rests t.doubted (∀ m a, (s.channel m).armed = some a → a.slot ≠ t.slot) (s.faulting l t) :=
  Rests.changeLaneState rfl h.rests.alike l .faulted

include single few limit

theorem closeConfirm_faults (serves : (s.lane l).state = .opened ∨ (s.lane l).state = .full) :
    s.closeConfirm t.slot = (s.faulting l t).storeBounds t.slot := by
  have lane := lane_doubting s l t
  have steady := steady_faulting s l t
  refine h.closeConfirm ((if_neg (ne_true_of_eq_false single)).trans ?_) h.rests_faulting steady.geo steady.bcu
  exact countFailure_faults (by rw [lane]; exact few) (by rw [lane]; exact limit) (by rw [lane]; exact serves)

/-- A FULL lane has no pass. -/
theorem closeConfirm_full (full : (s.lane l).state = .full) : s.closeConfirm t.slot =
    ((s.modLane l (fun r => { r with
      committed := r.committed - 1, failures := r.failures + 1, state := .faulted })).raise .laneFault).modTicket
        t.slot (fun _ => doubtOf s t) := by
  have shut : ((s.counted l t).lane l).state = .full := by
    rw [lane_counted]; exact full
  rw [h.closeConfirm_faults single few limit (.inr full), State.faulting, changeLaneState_shut (by rw [shut]; nofun),
    enterLaneState_faulted (by rw [shut]; nofun), State.counted, State.modLane_modLane, modLane_doubting]
  exact h.storeBounds (p := (s.modLane l _).raise .laneFault) rfl rfl

omit single few limit

/-- The pass takes every ticket of an OPEN lane's queue away, and none of its confirm list. -/
theorem lists_faulting (opened : (s.lane l).state = .opened) :
    ((s.faulting l t).storeBounds t.slot).routeQueue l = [] ∧
      (((s.faulting l t).storeBounds t.slot).confirmList l).length + 1 = (s.confirmList l).length := by
  have still : ((s.counted l t).lane l).state = .opened := by
    rw [lane_counted]; exact opened
  have slots : SlotsDistinct (s.counted l t) := h.rests.slots
  constructor
  · exact routeQueue_storeBounds_nil (routeQueue_changeLaneState slots still nofun)
  · have stored : (((s.faulting l t).storeBounds t.slot).confirmList l).map Ticket.slot =
        ((s.faulting l t).confirmList l).map Ticket.slot :=
      confirmList_map _ (fun v => by split <;> rfl) (fun v _ => by split <;> rfl)
    have passed : ((s.faulting l t).confirmList l).map Ticket.slot = ((s.doubting l t).confirmList l).map Ticket.slot := by
      unfold State.faulting
      rw [changeLaneState_leaves (new := .faulted) still nofun, confirmList_reresolutionPass (slots_enterLaneState slots l .faulted)
        (by rw [lane_enterLaneState]; nofun)]
      unfold State.confirmList
      rw [tt_enterLaneState]
      rfl
    have length := congrArg List.length (stored.trans passed)
    rw [List.length_map, List.length_map] at length
    rw [length, h.confirmList_doubting]

end Faults
end Closing

/-- The close that comes due first is that of a fired ticket. -/
theorem closing_of_nextClose? (hd : SlotsDistinct s) (next : s.nextClose? = some t) (dest : t.dest = some (.lane l))
    (ahead : isReached s.bcu.count (endBoundsOf s t).2 = false) : Closing s l t where
  slots := hd
  live := List.mem_of_find?_eq_some next
  fired := by
    have due := List.find?_some next
    unfold Ticket.closeDue at due
    unfold Ticket.firedAt
    rw [(Bool.and_eq_true_iff.mp due).1, laneDest_iff.mpr dest]
    exact Bool.and_true _ ▸ beq_self_eq_true _
  ahead := ahead

theorem exec_confirmWindowClose (h : Running s) (next : s.nextClose? = some t) :
    exec (.confirmWindowClose t.slot) s = .next (s.closeConfirm t.slot) := by
  have closes : s.onConfirmClose t.slot = s.closeConfirm t.slot := by
    unfold State.onConfirmClose; rw [next]; exact if_pos rfl
  exact (State.event_running h (fun s => s.onConfirmClose t.slot)).trans (congrArg _ closes)

end Sys2Proof.Machine

open Sys2Proof.Machine Sys2Proof.Safety

/-- Settles O33: the close writes the ticket and its lane's counters; at the fault limit a lane that was OPEN has its pass,
in which the ticket rests. -/
theorem confirmWindowClosesUnseen : Obligations.ConfirmWindowClosesUnseen := by
  rintro s k t l running hd next rfl dest ahead
  have closing := closing_of_nextClose? hd next dest ahead
  rw [exec_confirmWindowClose running next]
  refine ⟨fun joined => congrArg _ (closing.closeConfirm_joined joined),
    fun single few stays => congrArg _ (closing.closeConfirm_counted single few stays),
    fun single few limit serves => ⟨_, congrArg _ (closing.closeConfirm_faults single few limit serves), ?_⟩⟩
  have lane := lane_faulting s l t
  have steady := steady_faulting s l t
  have faults := closing.closeConfirm_faults single few limit serves
  refine ⟨(congrArg LaneRecord.state lane :), (congrArg LaneRecord.failures lane :), flagSet_faulting serves t,
    fun opened => (closing.lists_faulting opened).1, steady.cat, steady.geo, steady.bcu, fun free => ?_,
    fun kept empty => ?_, fun full => faults.symm.trans (closing.closeConfirm_full single few limit full)⟩
  · obtain ⟨slots, ⟨c, live, count⟩, -⟩ := closing.rests_faulting
    rw [count free] at live
    have stored := ticketAt?_storeBounds slots live
    unfold State.endWindow at stored
    rw [steady.geo] at stored
    exact stored
  · obtain opened | full := serves
    · obtain ⟨queue, list⟩ := closing.lists_faulting opened
      rw [committed_of_queue_empty (faults ▸ kept.closeConfirm t.slot) queue, list]
    · have before := committed_of_queue_empty kept (empty full)
      have some := List.length_pos_of_mem (mem_confirmList.mpr ⟨closing.live, closing.fired⟩)
      rw [← faults, closing.closeConfirm_full single few limit full]
      have after : (((s.modLane l (fun r => { r with
        committed := r.committed - 1, failures := r.failures + 1, state := .faulted })).raise .laneFault).modTicket
          t.slot (fun _ => doubtOf s t)).lane l = { s.lane l with
            committed := (s.lane l).committed - 1, failures := (s.lane l).failures + 1, state := .faulted } :=
        State.lane_modLane_self s l _
      rw [after]
      dsimp only
      omega
end

section
/-! Sections 7.4 and 7.5: a fire that falls due at the armed head of a route queue, by what it finds (R119 to R124), and
what becomes of the head behind it (R117). -/

namespace Sys2Proof.Safety

open Sys2Proof.Machine

variable {s : State} {l : Lane} {a : Armed} {t n : Ticket} {limit : Count} {rest : List Ticket}

/-! ### The armed head -/

/-- A route queue after a change of one live ticket's record, whatever becomes of its waiting. -/
theorem routeQueue_modTicket_live (hd : SlotsDistinct s) (live : t ∈ s.tt.belt) (f : Ticket → Ticket) :
    (s.modTicket t.slot f).routeQueue l =
      (s.tt.belt.filter (fun u => if u.slot = t.slot then (f t).queuedAt l else u.queuedAt l)).map
        (fun u => if u.slot = t.slot then f u else u) := by
  simp only [State.routeQueue, State.belt_modTicket, List.filter_map]
  congr 1
  refine List.filter_congr (fun u hu => ?_)
  rw [Function.comp_apply]
  split
  · rw [List.inj_on_of_nodup_map hd hu live ‹_›]
  · rfl

/-- A ticket is armed at the head of a lane's route queue, whether or not its fire is deferred, and others wait behind it
(R24, R114). -/
structure ArmedHead (s : State) (l : Lane) (a : Armed) (t : Ticket) (rest : List Ticket) : Prop where
  slots : SlotsDistinct s
  channel : (s.channel l).armed = some a
  queue : s.routeQueue l = t :: rest
  slot : a.slot = t.slot
  state : t.state = .armed

theorem ArmedAlone.head (h : ArmedAlone s l a t) : ArmedHead s l a t [] := { h with }

theorem ArmedBefore.head (h : ArmedBefore s l a t n) : ArmedHead s l a t [n] := { h with }

theorem DeferredAlone.head (h : DeferredAlone s l a t limit) : ArmedHead s l a t [] := { h with }

namespace ArmedHead

theorem mem (h : ArmedHead s l a t rest) : t ∈ s.tt.belt ∧ t.queuedAt l = true :=
  mem_routeQueue.mp (by rw [h.queue]; exact List.mem_cons_self)

theorem armedTicket (h : ArmedHead s l a t rest) : s.armedTicket? l = some t := by
  obtain ⟨live, queued⟩ := h.mem
  unfold State.armedTicket?
  rw [h.channel]
  dsimp only
  rw [h.slot, State.ticketAt?_of_mem h.slots live]
  exact if_pos ⟨h.state, (queuedAt_iff.mp queued).1⟩

/-- A head whose record is changed so that it waits no longer leaves the tickets behind it in the queue. -/
theorem routeQueue_out (h : ArmedHead s l a t rest) {f : Ticket → Ticket} (out : (f t).queuedAt l = false) :
    (s.modTicket t.slot f).routeQueue l = rest := by
  have apart : ∀ u ∈ rest, u.slot ≠ t.slot := by
    have slots : ((s.routeQueue l).map Ticket.slot).Nodup := (List.filter_sublist.map Ticket.slot).nodup h.slots
    rw [h.queue, List.map_cons, List.nodup_cons] at slots
    exact fun u hu same => slots.1 (same ▸ List.mem_map_of_mem hu)
  calc (s.modTicket t.slot f).routeQueue l
      = ((s.routeQueue l).filter (fun u => decide (u.slot ≠ t.slot))).map
          (fun u => if u.slot = t.slot then f u else u) := by
        rw [routeQueue_modTicket_live h.slots h.mem.1, out, State.routeQueue, List.filter_filter]
        congr 1
        refine List.filter_congr (fun u _ => ?_)
        by_cases same : u.slot = t.slot <;> simp [same]
    _ = rest.map (fun u => if u.slot = t.slot then f u else u) := by
        rw [h.queue, List.filter_cons_of_neg (by simp),
          List.filter_eq_self.mpr (fun u hu => decide_eq_true (apart u hu))]
    _ = rest.map id := List.map_congr_left (fun u hu => if_neg (apart u hu))
    _ = rest := List.map_id rest

end ArmedHead
end Sys2Proof.Safety

namespace Sys2Proof.Machine

open Sys2Proof.Safety

variable {s : State} {l : Lane} {a : Armed} {t n : Ticket} {rest : List Ticket} {own e : Count}

/-! ### FIRE_DUE (R119) -/

theorem exec_fireDue (h : Running s) (armed : (s.channel l).armed = some a) (due : a.lateLimit = none)
    (hr : isReached s.bcu.count a.planned = true) : exec (.fireDue l) s = .next ((s.fire l false).attendLane l) := by
  have isDue : s.fireIsDue l = true := by
    unfold State.fireIsDue
    rw [armed]
    dsimp only
    rw [due]
    exact hr
  exact (State.event_running h (fun s => s.onFireDue l)).trans (congrArg _ (if_pos isDue))

/-- A planned fire count that is ahead is not due (log 4). -/
theorem exec_fireDue_ahead (h : Running s) (armed : (s.channel l).armed = some a)
    (hr : isReached s.bcu.count a.planned = false) : exec (.fireDue l) s = .next s := by
  have notDue : ¬ s.fireIsDue l = true := by
    unfold State.fireIsDue
    rw [armed]
    dsimp only
    rw [State.now, hr, Bool.and_false]
    exact Bool.false_ne_true
  exact (State.event_running h (fun s => s.onFireDue l)).trans (congrArg _ (if_neg notDue))

/-- What a fire does in RUN or DRAIN, by the drive state it finds (R120 to R122). -/
def State.fireInto (s : State) (l : Lane) (t : Ticket) : DriveState → State
  | .idle => s.beginStroke l t
  | .pull => s.extendStroke l t
  | .hold => s.extendStroke l t
  | .recover => s.deferFire l t

theorem fire_running (h : s.armedTicket? l = some t) (hm : s.mode = .run ∨ s.mode = .drain) :
    s.fire l false = s.fireInto l t (s.drive l).state := by
  unfold State.fire
  rw [h]
  obtain hm | hm := hm <;> cases hd : (s.drive l).state <;> simp [hm, hd, State.fireInto]

theorem fire_inHold (h : s.armedTicket? l = some t) (hm : InHold s) : s.fire l false = s.missFire l t := by
  unfold State.fire
  rw [h]
  obtain hm | hm := hm <;> simp [hm]

/-! ### A fire taken (R120, R121) -/

theorem takeFire_eq (hd : SlotsDistinct s) (ht : t ∈ s.tt.belt) : s.takeFire l t =
    (s.modTicket t.slot (fun _ => strokingNow s l t)).modChannel l (fun c => { c with armed := none }) := by
  unfold State.takeFire
  rw [State.modTicket_modChannel]
  exact congrArg (fun u : State => u.modChannel l (fun c => { c with armed := none })) (modTicket_congr hd ht rfl rfl)

/-- The state after a fire that begins a stroke to an end count. -/
def State.strokeBegun (s : State) (l : Lane) (t : Ticket) (own : Count) : State :=
  ((s.modTicket t.slot (fun _ => strokingNow s l t)).modChannel l (fun _ =>
    { armed := none, strokeEnd := some own })).modDrive l (fun _ => begun (s.lane l) .fire)

theorem beginStroke_eq (hd : SlotsDistinct s) (ht : t ∈ s.tt.belt)
    (hown : own = s.bcu.count + BitVec.ofNat 16 (t.span.getD 0)) : s.beginStroke l t = s.strokeBegun l t own := by
  subst hown
  unfold State.beginStroke
  rw [takeFire_eq hd ht, State.modChannel_modChannel]
  rfl

theorem extendStroke_open (hd : SlotsDistinct s) (ht : t ∈ s.tt.belt) (he : (s.channel l).strokeEnd = some e)
    (hown : own = s.bcu.count + BitVec.ofNat 16 (t.span.getD 0)) :
    s.extendStroke l t = (s.modTicket t.slot (fun _ => strokingNow s l t)).modChannel l (fun _ =>
      { armed := none, strokeEnd := some (if 0 < signedDiff e own then own else e) }) := by
  subst hown
  unfold State.extendStroke
  rw [he]
  dsimp only
  rw [takeFire_eq hd ht, State.modChannel_modChannel]
  rfl

theorem extendStroke_closed (hd : SlotsDistinct s) (ht : t ∈ s.tt.belt) (he : (s.channel l).strokeEnd = none)
    (hown : own = s.bcu.count + BitVec.ofNat 16 (t.span.getD 0)) :
    s.extendStroke l t = ((s.modTicket t.slot (fun _ => strokingNow s l t)).modChannel l (fun _ =>
      { armed := none, strokeEnd := some own })).modDrive l (fun d => { d with endHeld := false }) := by
  subst hown
  unfold State.extendStroke
  rw [he]
  dsimp only
  rw [takeFire_eq hd ht, State.modChannel_modChannel]
  rfl

theorem not_queuedAt_strokingNow (s : State) (l m : Lane) (t : Ticket) : (strokingNow s l t).queuedAt m = false := by
  simp [Ticket.queuedAt, strokingNow]

/-! ### A fire missed (R124) -/

/-- What a miss at a lane writes, given the missed ticket's new record: its channel is free, its commitment released, and
it is counted MISSED. -/
def State.missedAs (s : State) (l : Lane) (k : Slot) (w : Ticket) : State :=
  (((s.release l).modChannel l (fun ch => { ch with armed := none })).countRunOff .missed).modTicket k (fun _ => w)

/-- The state after a missed fire whose end window is ahead. -/
def State.fireMissed (s : State) (l : Lane) (t : Ticket) : State := s.missedAs l t.slot (ranOff s .missed t)

theorem missFire_eq (h : ArmedHead s l a t rest) (hw : isReached s.bcu.count (endBoundsOf s t).2 = false) :
    s.missFire l t = s.fireMissed l t := by
  obtain ⟨live, queued⟩ := h.mem
  unfold State.missFire State.releaseOf
  rw [(commitment_of_waiting (.inr h.state)).trans (queuedAt_iff.mp queued).1]
  exact sendToRunOff_ahead (s := (s.modChannel l (fun ch => { ch with armed := none })).release l) h.slots live
    .missed hw

theorem not_queuedAt_ranOff (s : State) (r : Reason) (t : Ticket) (m : Lane) : (ranOff s r t).queuedAt m = false := by
  simp [Ticket.queuedAt, ranOff]

/-! ### The head behind (R117) -/

theorem attend_empty (k : Nat) (h : s.routeQueue l = []) : s.attend k l = s := by
  cases k with
  | zero => rfl
  | succ k => rw [State.attend, h]

/-- What the channel holds of a ticket armed now (R117). -/
def armedNow (s : State) (l : Lane) (n : Ticket) : Armed :=
  { slot := n.slot, lead := s.lead l, planned := plannedNow s l n, lateLimit := none }

/-- The record of a ticket armed now (R117). -/
def ticketArmedNow (s : State) (l : Lane) (n : Ticket) : Ticket :=
  { n with state := .armed, fireCount := some (plannedNow s l n) }

/-- The same with LATE marked, its planned fire count being reached (R119). -/
def ticketLateNow (s : State) (l : Lane) (n : Ticket) : Ticket :=
  { ticketArmedNow s l n with marks := { n.marks with late := true } }

/-- The state in which the late fire of a ticket armed now is taken. -/
def State.armedLate (s : State) (l : Lane) (n : Ticket) : State :=
  (s.modTicket n.slot (fun _ => ticketLateNow s l n)).modChannel l (fun c => { c with armed := some (armedNow s l n) })

/-- A record written over twice. -/
theorem State.modTicket_overwrite (s : State) {x : Ticket} (y : Ticket) (k : Slot) (hx : x.slot = k) :
    (s.modTicket k (fun _ => x)).modTicket k (fun _ => y) = s.modTicket k (fun _ => y) := by
  simp only [State.modTicket, List.map_map]
  congr 2
  refine List.map_congr_left (fun u _ => ?_)
  rw [Function.comp_apply]
  split <;> simp_all

theorem armedTicket?_arm (hd : SlotsDistinct s) (hq : s.routeQueue l = n :: rest) :
    (s.arm l n).armedTicket? l = some (ticketArmedNow s l n) := by
  obtain ⟨live, queued⟩ := mem_routeQueue.mp (hq ▸ List.mem_cons_self)
  have armed : ((s.arm l n).channel l).armed = some (armedNow s l n) :=
    congrArg Channel.armed (State.channel_modChannel_self s l _)
  have found : (s.arm l n).ticketAt? n.slot = some (ticketArmedNow s l n) := by
    refine (State.ticketAt?_modTicket _ _ _ _ (by intro _; rfl)).trans ?_
    rw [State.ticketAt?_modChannel, State.ticketAt?_of_mem hd live]
    exact congrArg some (if_pos rfl)
  unfold State.armedTicket?
  rw [armed]
  dsimp only [armedNow]
  rw [found]
  exact if_pos ⟨rfl, (queuedAt_iff.mp queued).1⟩

theorem arm_markLate (hd : SlotsDistinct s) (live : n ∈ s.tt.belt) :
    (s.arm l n).markLate (ticketArmedNow s l n) = s.armedLate l n := by
  unfold State.markLate State.arm
  dsimp only [ticketArmedNow]
  rw [State.modTicket_modTicket _ _ _ _ (by intro _; rfl), State.modTicket_modChannel]
  exact congrArg (fun u : State => u.modChannel l (fun c => { c with armed := some (armedNow s l n) }))
    (modTicket_congr hd live rfl rfl)

theorem armedHead_armedLate (hd : SlotsDistinct s) (hq : s.routeQueue l = [n]) :
    ArmedHead (s.armedLate l n) l (armedNow s l n) (ticketLateNow s l n) [] := by
  obtain ⟨live, queued⟩ := mem_routeQueue.mp (hq ▸ List.mem_cons_self)
  have waits : (ticketLateNow s l n).queuedAt l = true := queuedAt_iff.mpr ⟨(queuedAt_iff.mp queued).1, .inr rfl⟩
  have same : ∀ u ∈ s.tt.belt, (if u.slot = n.slot then true else u.queuedAt l) = u.queuedAt l := by
    intro u hu
    split
    · rw [List.inj_on_of_nodup_map hd hu live ‹_›, queued]
    · rfl
  refine ⟨?_, congrArg Channel.armed (State.channel_modChannel_self _ l _), ?_, rfl, rfl⟩
  · rw [← arm_markLate hd live]
    exact ((Steady.arm s l n).trans (Steady.modTicket _ _ _)).distinct hd
  · refine (routeQueue_modTicket_live hd live _).trans ?_
    rw [waits, List.filter_congr same, show s.tt.belt.filter (fun u => u.queuedAt l) = [n] from hq]
    simp

/-- A head whose planned fire count is reached is armed and fired late at once. -/
theorem attendLane_fires (hq : s.routeQueue l = n :: rest) (free : (s.channel l).armed = none)
    (hr : isReached s.bcu.count (plannedNow s l n) = true) :
    s.attendLane l = ((s.arm l n).fire l true).attend (s.tt.belt.length + 1) l := by
  unfold State.attendLane
  rw [State.attend, hq]
  dsimp only
  rw [free]
  exact if_pos hr

/-- Fired late with the drive driven and its channel open, the head extends the stroke (R121). -/
theorem attendLane_extends (hd : SlotsDistinct s) (hq : s.routeQueue l = [n]) (free : (s.channel l).armed = none)
    (hr : isReached s.bcu.count (plannedNow s l n) = true) (hm : s.mode = .run ∨ s.mode = .drain) (driven : Driven s l)
    (he : (s.channel l).strokeEnd = some e) (hown : own = s.bcu.count + BitVec.ofNat 16 (n.span.getD 0)) :
    s.attendLane l = (s.modTicket n.slot (fun _ => strokingLate s l n)).modChannel l (fun _ =>
      { armed := none, strokeEnd := some (if 0 < signedDiff e own then own else e) }) := by
  have live := (mem_routeQueue.mp (hq ▸ List.mem_cons_self)).1
  have head := armedHead_armedLate hd hq
  have stillOpen : ((s.armedLate l n).channel l).strokeEnd = some e :=
    (congrArg Channel.strokeEnd (State.channel_modChannel_self _ l _)).trans he
  have fired : (s.arm l n).fire l true = (s.modTicket n.slot (fun _ => strokingLate s l n)).modChannel l (fun _ =>
      { armed := none, strokeEnd := some (if 0 < signedDiff e own then own else e) }) := by
    rw [fire_late_driven (armedTicket?_arm hd hq) hm driven, arm_markLate hd live]
    refine (extendStroke_open head.slots head.mem.1 stillOpen hown).trans ?_
    unfold State.armedLate
    rw [State.modTicket_modChannel, State.modChannel_modChannel]
    exact congrArg (fun u : State => u.modChannel l _) (State.modTicket_overwrite s _ n.slot rfl)
  rw [attendLane_fires hq free hr, fired]
  exact attend_empty _ (routeQueue_modTicket_out (s := s) (fun _ => strokingLate s l n) hd hq
    (not_queuedAt_strokingNow s l l n))

theorem countRunOff_modTicket (s : State) (r : Reason) (k : Slot) (f : Ticket → Ticket) :
    (s.modTicket k f).countRunOff r = (s.countRunOff r).modTicket k f := by
  unfold State.countRunOff
  split <;> rfl

/-- A miss leaves nothing of the arming but the record's fire count and marks. -/
theorem fireMissed_armedLate (s : State) (l : Lane) (n : Ticket) :
    (s.armedLate l n).fireMissed l (ticketLateNow s l n) = s.fireMissed l (ticketLateNow s l n) := by
  have freed : ((s.armedLate l n).release l).modChannel l (fun ch => { ch with armed := none }) =
      ((s.release l).modChannel l (fun ch => { ch with armed := none })).modTicket n.slot
        (fun _ => ticketLateNow s l n) :=
    State.modChannel_modChannel ((s.modTicket n.slot (fun _ => ticketLateNow s l n)).release l) l
      (fun c => { c with armed := some (armedNow s l n) }) (fun ch => { ch with armed := none })
  unfold State.fireMissed State.missedAs
  rw [freed, countRunOff_modTicket]
  exact State.modTicket_overwrite _ _ n.slot rfl

/-- Fired late in HOLD with its end window ahead, the head is missed too (R124). -/
theorem attendLane_misses (hd : SlotsDistinct s) (hq : s.routeQueue l = [n]) (free : (s.channel l).armed = none)
    (hr : isReached s.bcu.count (plannedNow s l n) = true) (hm : InHold s)
    (hw : isReached s.bcu.count (endBoundsOf s n).2 = false) :
    s.attendLane l = s.fireMissed l (ticketLateNow s l n) := by
  have live := (mem_routeQueue.mp (hq ▸ List.mem_cons_self)).1
  have fired : (s.arm l n).fire l true = s.fireMissed l (ticketLateNow s l n) := by
    rw [fire_late_hold (armedTicket?_arm hd hq) hm, arm_markLate hd live]
    exact (missFire_eq (armedHead_armedLate hd hq) hw).trans (fireMissed_armedLate s l n)
  rw [attendLane_fires hq free hr, fired]
  exact attend_empty _ (routeQueue_modTicket_out (s := s) (t := n) (fun _ => ranOff s .missed (ticketLateNow s l n)) hd hq
    (not_queuedAt_ranOff s .missed _ l))

end Sys2Proof.Machine
end

section
/-! FIRE_DUE as the statements have it (sections 7.4 and 7.5): the fire of the head, and what becomes of the one behind
it. -/

namespace Sys2Proof.Machine

open Sys2Proof.Safety

variable {s : State} {l : Lane} {a : Armed} {t n : Ticket} {rest : List Ticket} {own own' : Count}

/-! ### After a stroke has begun (R120) -/

theorem slotsDistinct_strokeBegun (h : ArmedHead s l a t rest)
    (hown : own = s.bcu.count + BitVec.ofNat 16 (t.span.getD 0)) : SlotsDistinct (s.strokeBegun l t own) :=
  beginStroke_eq h.slots h.mem.1 hown ▸ (Steady.beginStroke s l t).distinct h.slots

theorem routeQueue_strokeBegun (h : ArmedHead s l a t rest) : (s.strokeBegun l t own).routeQueue l = rest :=
  h.routeQueue_out (f := fun _ => strokingNow s l t) (not_queuedAt_strokingNow s l l t)

theorem channel_strokeBegun (s : State) (l : Lane) (t : Ticket) (own : Count) :
    (s.strokeBegun l t own).channel l = { armed := none, strokeEnd := some own } :=
  State.channel_modChannel_self (s.modTicket t.slot _) l _

theorem driven_strokeBegun (s : State) (l : Lane) (t : Ticket) (own : Count) : Driven (s.strokeBegun l t own) l := by
  have drive : (s.strokeBegun l t own).drive l = begun (s.lane l) .fire := State.drive_modDrive_self _ _ _
  unfold Driven
  rw [drive]
  dsimp only [begun]
  split
  · exact .inr rfl
  · exact .inl rfl

theorem exec_fireDue_idle (h : Running s) (hm : s.mode = .run ∨ s.mode = .drain) (head : ArmedHead s l a t rest)
    (due : a.lateLimit = none) (hr : isReached s.bcu.count a.planned = true) (idle : (s.drive l).state = .idle)
    (hown : own = s.bcu.count + BitVec.ofNat 16 (t.span.getD 0)) :
    exec (.fireDue l) s = .next ((s.strokeBegun l t own).attendLane l) := by
  rw [exec_fireDue h head.channel due hr, fire_running head.armedTicket hm, idle,
    ← beginStroke_eq head.slots head.mem.1 hown]
  rfl

/-- The next head, its planned fire count ahead, is armed (R117). -/
theorem attendLane_strokeBegun_ahead (h : ArmedHead s l a t [n])
    (hr : isReached s.bcu.count (plannedNow s l n) = false) : (s.strokeBegun l t own).attendLane l =
      (((s.modTicket t.slot (fun _ => strokingNow s l t)).modTicket n.slot (fun u =>
        { u with state := .armed, fireCount := some (plannedNow s l n) })).modChannel l (fun _ =>
          { armed := some { slot := n.slot, lead := s.lead l, planned := plannedNow s l n, lateLimit := none }
            strokeEnd := some own })).modDrive l (fun _ => begun (s.lane l) .fire) := by
  have free : ((s.strokeBegun l t own).channel l).armed = none := congrArg Channel.armed (channel_strokeBegun s l t own)
  rw [attendLane_arms _ l (routeQueue_strokeBegun h) free hr]
  exact congrArg (fun u : State => (u.modTicket n.slot (fun u =>
      { u with state := .armed, fireCount := some (plannedNow s l n) })).modDrive l (fun _ => begun (s.lane l) .fire))
    (State.modChannel_modChannel (s.modTicket t.slot (fun _ => strokingNow s l t)) l
      (fun _ => { armed := none, strokeEnd := some own }) (fun c => { c with armed := some (armedNow s l n) }))

/-- The next head, its planned fire count reached, extends the stroke just begun (R119, R121). -/
theorem attendLane_strokeBegun_reached (h : ArmedHead s l a t [n]) (hm : s.mode = .run ∨ s.mode = .drain)
    (hr : isReached s.bcu.count (plannedNow s l n) = true)
    (hown : own = s.bcu.count + BitVec.ofNat 16 (t.span.getD 0))
    (hown' : own' = s.bcu.count + BitVec.ofNat 16 (n.span.getD 0)) : (s.strokeBegun l t own).attendLane l =
      (((s.modTicket t.slot (fun _ => strokingNow s l t)).modTicket n.slot (fun _ => strokingLate s l n)).modChannel l
        (fun _ => { armed := none, strokeEnd := some (if 0 < signedDiff own own' then own' else own) })).modDrive l
          (fun _ => begun (s.lane l) .fire) := by
  have channel := channel_strokeBegun s l t own
  rw [attendLane_extends (slotsDistinct_strokeBegun h hown) (routeQueue_strokeBegun h) (congrArg Channel.armed channel) hr
    hm (driven_strokeBegun s l t own) (congrArg Channel.strokeEnd channel) hown']
  exact congrArg (fun u : State => (u.modTicket n.slot (fun _ => strokingLate s l n)).modDrive l
      (fun _ => begun (s.lane l) .fire))
    (State.modChannel_modChannel (s.modTicket t.slot (fun _ => strokingNow s l t)) l
      (fun _ => { armed := none, strokeEnd := some own })
      (fun _ => { armed := none, strokeEnd := some (if 0 < signedDiff own own' then own' else own) }))

/-! ### A fire into a driven stroke, or into RECOVER (R121, R122) -/

/-- After a fire that leaves its ticket stroking and nobody behind, the route queue is empty. -/
theorem exec_fireDue_extends {v : State} (h : Running s) (hm : s.mode = .run ∨ s.mode = .drain)
    (head : ArmedHead s l a t []) (due : a.lateLimit = none) (hr : isReached s.bcu.count a.planned = true)
    (driven : Driven s l) (extended : s.extendStroke l t = v)
    (records : v.tt = (s.modTicket t.slot (fun _ => strokingNow s l t)).tt) : exec (.fireDue l) s = .next v := by
  have into : s.fireInto l t (s.drive l).state = s.extendStroke l t := by
    obtain d | d := driven <;> rw [d] <;> rfl
  have queue : v.routeQueue l = [] := by
    have := head.routeQueue_out (f := fun _ => strokingNow s l t) (not_queuedAt_strokingNow s l l t)
    rwa [State.routeQueue, ← records] at this
  rw [exec_fireDue h head.channel due hr, fire_running head.armedTicket hm, into, extended, attendLane_empty v l queue]

/-- What a deferral writes (R63, R122). -/
theorem deferFire_eq {c : WareClass} (armed : (s.channel l).armed = some a) (cls : t.cls = some c) :
    s.deferFire l t = (s.modTicket t.slot (fun u => { u with marks := { u.marks with deferred := true } })).modChannel l
      (fun ch => { ch with armed := some { a with
        lateLimit := some (t.nominal.getD 0 + BitVec.ofNat 16 (s.classRecord c).lateAllowance) } }) := by
  unfold State.deferFire State.lateAllowance
  rw [cls]
  refine congrArg (fun cs => { s.modTicket t.slot _ with channels := cs }) (tableMod_congr s.channels l _ _ ?_)
  rw [show (s.channels.get l).armed = some a from armed]
  rfl

/-! ### Fires missed (R124) -/

theorem exec_fireDue_hold (h : Running s) (hm : InHold s) (head : ArmedHead s l a t rest)
    (due : a.lateLimit = none) (hr : isReached s.bcu.count a.planned = true)
    (hw : isReached s.bcu.count (endBoundsOf s t).2 = false) :
    exec (.fireDue l) s = .next ((s.fireMissed l t).attendLane l) := by
  rw [exec_fireDue h head.channel due hr, fire_inHold head.armedTicket hm, missFire_eq head hw]

theorem routeQueue_fireMissed (h : ArmedHead s l a t rest) : (s.fireMissed l t).routeQueue l = rest :=
  h.routeQueue_out (f := fun _ => ranOff s .missed t) (not_queuedAt_ranOff s .missed t l)

theorem slotsDistinct_fireMissed (h : ArmedHead s l a t rest)
    (hw : isReached s.bcu.count (endBoundsOf s t).2 = false) : SlotsDistinct (s.fireMissed l t) :=
  missFire_eq h hw ▸ (Steady.missFire s l t).distinct h.slots

/-- A miss leaves the lane's lead as it was. -/
theorem plannedNow_fireMissed (s : State) (l : Lane) (t n : Ticket) :
    plannedNow (s.fireMissed l t) l n = plannedNow s l n := by
  have latency : ((s.fireMissed l t).lane l).latency = (s.lane l).latency := by
    show ((s.release l).lane l).latency = _
    rw [State.release, State.lane_modLane_self]
  unfold plannedNow
  rw [lead_congr latency rfl]

/-- Two misses in a row at one lane. -/
theorem missedAs_missedAs (s : State) (l : Lane) {j k : Slot} {v w : Ticket} (hne : v.slot ≠ k) :
    (s.missedAs l j v).missedAs l k w =
      { (s.modLane l (fun r => { r with committed := r.committed - 1 - 1 })).modChannel l
          (fun ch => { ch with armed := none }) with
        tt := { s.tt with
          belt := s.tt.belt.map (fun u => if u.slot = j then v else if u.slot = k then w else u)
          runOffReasons := tableMod s.tt.runOffReasons 5 (fun n => min (n + 2) 65535) } } := by
  have counted : (fun n => satInc counterTop (satInc counterTop n)) = fun n => min (n + 2) 65535 := by
    funext n
    unfold satInc counterTop
    omega
  unfold State.missedAs
  simp only [State.countRunOff, Reason.runOffIndex, State.release, State.modLane, State.modChannel, State.modTicket,
    tableMod_tableMod, List.map_map, counted]
  congr 2
  refine List.map_congr_left (fun u _ => ?_)
  rw [Function.comp_apply]
  by_cases first : u.slot = j
  · rw [if_pos first, if_pos first, if_neg hne]
  · rw [if_neg first, if_neg first]

/-- The next head, its planned fire count reached, is missed in the same event. -/
theorem attendLane_fireMissed (h : ArmedHead s l a t [n]) (hm : InHold s)
    (hr : isReached s.bcu.count (plannedNow s l n) = true)
    (hw : isReached s.bcu.count (endBoundsOf s t).2 = false) (hw' : isReached s.bcu.count (endBoundsOf s n).2 = false) :
    (s.fireMissed l t).attendLane l = (s.fireMissed l t).missedAs l n.slot
      { ranOff s .missed n with fireCount := some (plannedNow s l n), marks := { n.marks with late := true } } := by
  have free : ((s.fireMissed l t).channel l).armed = none :=
    congrArg Channel.armed (State.channel_modChannel_self (s.release l) l _)
  have planned := plannedNow_fireMissed s l t n
  have record : ranOff (s.fireMissed l t) .missed (ticketLateNow (s.fireMissed l t) l n) =
      { ranOff s .missed n with fireCount := some (plannedNow s l n), marks := { n.marks with late := true } } := by
    unfold ticketLateNow ticketArmedNow
    rw [planned]
    rfl
  rw [attendLane_misses (slotsDistinct_fireMissed h hw) (routeQueue_fireMissed h) free (planned ▸ hr) hm hw', ← record]
  rfl

end Sys2Proof.Machine

open Sys2Proof.Machine Sys2Proof.Safety

/-- Settles O21: the stroke begun for the head is what the next head's arming, or its late fire, finds. -/
theorem fireBeginsStroke : Obligations.FireBeginsStroke := by
  intro s l a t own running mode due idle hown
  refine ⟨fun alone => ?_, fun n before => ⟨fun ahead => ?_, fun own' reached hown' => ?_⟩⟩
  · rw [exec_fireDue_idle running mode alone.head alone.notDeferred due idle hown,
      attendLane_empty _ l (routeQueue_strokeBegun alone.head)]
    rfl
  · rw [exec_fireDue_idle running mode before.head before.notDeferred due idle hown,
      attendLane_strokeBegun_ahead before.head ahead]
  · rw [exec_fireDue_idle running mode before.head before.notDeferred due idle hown,
      attendLane_strokeBegun_reached before.head mode reached hown hown']

/-- Settles O22, by whether the channel is still open. -/
theorem fireExtendsStroke : Obligations.FireExtendsStroke := by
  intro s l a t own running mode alone due driven hown
  have head := alone.head
  exact ⟨fun e isOpen => exec_fireDue_extends running mode head alone.notDeferred due driven
      (extendStroke_open head.slots head.mem.1 isOpen hown) rfl,
    fun closed => exec_fireDue_extends running mode head alone.notDeferred due driven
      (extendStroke_closed head.slots head.mem.1 closed hown) rfl⟩

/-- Settles O23: the deferred head stays armed, so attending to it changes nothing. -/
theorem fireDeferredInRecover : Obligations.FireDeferredInRecover := by
  intro s l a t c running mode alone due recovering cls
  have head := alone.head
  rw [exec_fireDue running head.channel alone.notDeferred due, fire_running head.armedTicket mode, recovering]
  refine congrArg _ ((congrArg (State.attendLane · l) (deferFire_eq head.channel cls)).trans ?_)
  refine attendLane_armed _ l (t := { t with marks := { t.marks with deferred := true } }) (rest := []) ?_
    (congrArg Channel.armed (State.channel_modChannel_self _ l _)) head.slot
  rw [State.routeQueue_modChannel, routeQueue_modTicket _ _ _ (by intro _; rfl), head.queue]
  simp

/-- Settles O24: the head's miss frees the channel, and the next head is then missed in its turn. -/
theorem fireMissedInHold : Obligations.FireMissedInHold := by
  intro s l a t running
  refine ⟨fun alone hold due ahead => ?_, fun n before hold due reached ahead ahead' => ?_, fun alone notDue => ?_⟩
  · rw [exec_fireDue_hold running hold alone.head alone.notDeferred due ahead,
      attendLane_empty _ l (routeQueue_fireMissed alone.head)]
    rfl
  · rw [exec_fireDue_hold running hold before.head before.notDeferred due ahead,
      attendLane_fireMissed before.head hold reached ahead ahead']
    have apart : t.slot ≠ n.slot := slot_ne_of_routeQueue before.slots before.queue
    exact congrArg _ (missedAs_missedAs s l apart)
  · exact exec_fireDue_ahead running alone.channel notDue
end

section
/-! The ends of strokes and of recovery (sections 7.5 and 8.3): a stroke end count reached (R125, R136), and the recovery
time elapsed with a deferred fire outstanding or not (R123, R137). -/

namespace Sys2Proof.Machine

open Sys2Proof.Safety

variable {s : State} {l : Lane} {a : Armed} {t : Ticket} {rest : List Ticket} {e limit : Count}

/-! ### The stroke end count reached (R125) -/

/-- The lane's STROKING tickets are CONFIRMING and its channel is no longer open. -/
def State.strokeClosed (s : State) (l : Lane) : State := (s.closeChannel l).endStroking l id

theorem exec_strokeEnd (h : Running s) (he : (s.channel l).strokeEnd = some e) (hr : isReached s.bcu.count e = true) :
    exec (.strokeEndCountReached l) s = .next (s.strokeEnds l) := by
  have due : s.strokeEndIsDue l = true := by
    unfold State.strokeEndIsDue
    rw [he]
    exact hr
  exact (State.event_running h (fun s => s.onStrokeEnd l)).trans (congrArg _ (if_pos due))

theorem strokeClosed_eq (s : State) (l : Lane) : s.strokeClosed l =
    ({ s with tt := { s.tt with belt := s.tt.belt.map (fun t =>
      if t.state = .stroking ∧ t.dest = some (.lane l) then { t with state := .confirming } else t) } } :
        State).modChannel l (fun ch => { ch with strokeEnd := none }) := by
  have records : s.tt.belt.map (fun t => if t.state = .stroking ∧ t.laneDest = some l then
      { t with state := .confirming, marks := id t.marks } else t) =
      s.tt.belt.map (fun t =>
        if t.state = .stroking ∧ t.dest = some (.lane l) then { t with state := .confirming } else t) := by
    simp only [laneDest_iff, id_eq]
  unfold State.strokeClosed State.endStroking
  rw [← records]
  rfl

/-- What the stroke end does to the drive, by its state (R125, R136). -/
def State.strokeEndInto (s : State) (l : Lane) : DriveState → State
  | .hold => s.recoverLane l
  | .pull => s.modDrive l (fun d => { d with endHeld := true })
  | .idle => s
  | .recover => s

theorem strokeEnds_eq (s : State) (l : Lane) :
    s.strokeEnds l = (s.strokeClosed l).strokeEndInto l (s.drive l).state := rfl

/-- A drive with a recovery time to run enters RECOVER, and no deferred fire is judged yet (R137). -/
theorem recoverLane_eq (h : (s.lane l).recoveryTime ≠ 0) :
    s.recoverLane l = s.modDrive l (fun d => recovering (s.lane l).recoveryTime d.kind) := by
  have entered : s.driveRecover l = s.modDrive l (fun d => recovering (s.lane l).recoveryTime d.kind) := by
    unfold State.driveRecover
    dsimp only
    simp only [if_neg h]
    rfl
  unfold State.recoverLane
  rw [entered]
  exact if_neg (by simp [recovering])

/-! ### The recovery time elapsed (R123, R137) -/

theorem exec_recovery (h : Running s) (hd : (s.drive l).state = .recover) (elapsed : (s.drive l).recoveryLeft = 0) :
    exec (.recoveryTimeElapsed l) s = .next ((s.modDrive l (fun _ => Drive.reset)).judgeDeferred l) := by
  have due : s.timeLeft (.recovery l) = some 0 := (if_pos hd).trans (congrArg some elapsed)
  exact (State.event_running h (fun s => s.awaitTimer (.recovery l))).trans (congrArg _ (State.awaitTimer_due due))

theorem judgeDeferred_none (h : ∀ a, (s.channel l).armed = some a → a.lateLimit = none) : s.judgeDeferred l = s := by
  unfold State.judgeDeferred
  split
  · rename_i a _ armed _
    rw [h a armed]
  all_goals rfl

theorem judgeDeferred_ahead (head : ArmedHead s l a t rest) (deferred : a.lateLimit = some limit)
    (hm : s.mode = .run ∨ s.mode = .drain) (hl : isReached s.bcu.count limit = false) :
    s.judgeDeferred l = (s.beginStroke l t).attendLane l := by
  unfold State.judgeDeferred
  rw [head.channel, head.armedTicket]
  dsimp only
  rw [deferred]
  obtain hm | hm := hm <;> simp [hm, State.now, hl]

theorem judgeDeferred_missed (head : ArmedHead s l a t rest) (deferred : a.lateLimit = some limit)
    (hm : InHold s ∨ ((s.mode = .run ∨ s.mode = .drain) ∧ isReached s.bcu.count limit = true)) :
    s.judgeDeferred l = (s.missFire l t).attendLane l := by
  unfold State.judgeDeferred
  rw [head.channel, head.armedTicket]
  dsimp only
  rw [deferred]
  obtain (hm | hm) | ⟨hm | hm, hl⟩ := hm
  · simp [hm]
  · simp [hm]
  · simp [hm, State.now, hl]
  · simp [hm, State.now, hl]

/-- A stroke begins alike whatever the drive was before (R135). -/
theorem strokeBegun_modDrive (s : State) (l : Lane) (t : Ticket) (own : Count) (f : Drive → Drive) :
    (s.modDrive l f).strokeBegun l t own = s.strokeBegun l t own := by
  unfold State.strokeBegun
  simp only [State.modTicket, State.modChannel, State.modDrive, tableMod_tableMod]
  rfl

end Sys2Proof.Machine

open Sys2Proof.Machine Sys2Proof.Safety

/-- Settles O25: the tickets and the channel first, then the drive by its state. -/
theorem strokeEndsAtItsCount : Obligations.StrokeEndsAtItsCount := by
  rintro s l e belt running isOpen due rfl
  rw [exec_strokeEnd running isOpen due, strokeEnds_eq, ← strokeClosed_eq]
  refine ⟨fun hold time => ?_, fun pull => ?_, fun undriven => ?_⟩
  · rw [hold]
    exact congrArg _ (recoverLane_eq (s := s.strokeClosed l) time)
  · rw [pull]
    rfl
  · obtain idle | recover := undriven
    · rw [idle]
      rfl
    · rw [recover]
      rfl

/-- Settles O28: the drive is IDLE when the deferred fire is judged, so one that is taken begins a stroke. -/
theorem recoveryEndsAndDeferredFireIsJudged : Obligations.RecoveryEndsAndDeferredFireIsJudged := by
  intro s l running recover elapsed
  rw [exec_recovery running recover elapsed]
  refine ⟨fun planned => congrArg _ (judgeDeferred_none planned), fun a t limit deferred => ?_⟩
  have head : ArmedHead (s.modDrive l (fun _ => Drive.reset)) l a t [] := { deferred.head with }
  refine ⟨fun mode ahead => ?_, fun mode window => ?_⟩
  · rw [judgeDeferred_ahead head deferred.deferred mode ahead, beginStroke_eq head.slots head.mem.1 rfl,
      attendLane_empty _ l (routeQueue_strokeBegun head)]
    exact congrArg _ (strokeBegun_modDrive s l t _ (fun _ => Drive.reset))
  · rw [judgeDeferred_missed head deferred.deferred mode, missFire_eq head window,
      attendLane_empty _ l (routeQueue_fireMissed head)]
    rfl
end

section
/-! Sections 8.5, 8.6 and 10.4: where the diverters are still (R139 to R141, R159, R160, R163). Operations on tickets, lanes,
channels and drives begin strokes in RUN and DRAIN alone, and the entry into SETUP leaves test strokes alone driven. -/

namespace Sys2Proof.Safety

open Sys2Proof.Machine

/-- The guard and a reset stand as they were, the mode too unless it has become SETUP with only test strokes driven, and in
SETUP and HOLD no diverter is driven that was not. -/
structure StaysStill (s t : State) : Prop where
  inReset : t.inReset = s.inReset
  guard : t.mc.guard = s.mc.guard
  mode : t.mode = s.mode ∨ (t.mode = .setup ∧ ∀ l, Driven t l → InTest t l)
  drives : s.mode = .setup ∨ InHold s → ∀ l, Driven t l → Driven s l ∧ (t.drive l).kind = (s.drive l).kind

theorem inHold_iff {s : State} : InHold s ↔ ∃ h, s.mode = .hold h := by
  unfold InHold
  constructor
  · rintro (e | e) <;> exact ⟨_, e⟩
  · rintro ⟨h, e⟩
    cases h with
    | run => exact .inl e
    | drain => exact .inr e

theorem inHold_congr {s t : State} (h : t.mode = s.mode) : InHold t ↔ InHold s := by
  unfold InHold
  rw [h]

theorem not_inHold_of_setup {s : State} (h : s.mode = .setup) : ¬ InHold s := by
  rintro (e | e) <;> cases h.symm.trans e

/-- RUN and DRAIN are neither SETUP nor HOLD. -/
theorem not_stopped_of_attending {s : State} (h : s.mode = .run ∨ s.mode = .drain) :
    ¬ (s.mode = .setup ∨ InHold s) := by
  obtain e | e := h <;> (rintro (e' | e' | e') <;> cases e.symm.trans e')

/-- A drive that runs a test stroke in PULL or HOLD keeps its diverter from rest (R140). -/
theorem driven_of_inTest {s : State} {l : Lane} (h : (s.drive l).inTest = true) : Driven s l ∧ InTest s l := by
  obtain ⟨driven, kind⟩ := Bool.and_eq_true_iff.mp h
  refine ⟨driven_iff.mp driven, ?_⟩
  unfold InTest
  split at kind
  · exact ⟨_, ‹_›⟩
  · cases kind
  · cases kind

namespace StaysStill

variable {s t u : State} {l : Lane}

/-! ### Chains and single updates -/

theorem refl (s : State) : StaysStill s s := ⟨rfl, rfl, .inl rfl, fun _ _ driven => ⟨driven, rfl⟩⟩

/-- Neither SETUP nor HOLD is left for RUN or DRAIN. -/
theorem stopped (k : StaysStill s t) (h : s.mode = .setup ∨ InHold s) : t.mode = .setup ∨ InHold t := by
  obtain same | ⟨setup, -⟩ := k.mode
  · exact h.imp same.trans (inHold_congr same).mpr
  · exact .inl setup

theorem trans (h : StaysStill s t) (k : StaysStill t u) : StaysStill s u where
  inReset := k.inReset.trans h.inReset
  guard := k.guard.trans h.guard
  mode := by
    obtain same | ⟨setup, tests⟩ := h.mode
    · rw [← same]; exact k.mode
    obtain same | entered := k.mode
    · refine .inr ⟨same.trans setup, fun l driven => ?_⟩
      obtain ⟨before, kind⟩ := k.drives (.inl setup) l driven
      obtain ⟨e, test⟩ := tests l before
      exact ⟨e, kind.trans test⟩
    · exact .inr entered
  drives still l driven := by
    obtain ⟨before, kind⟩ := k.drives (h.stopped still) l driven
    obtain ⟨first, kind'⟩ := h.drives still l before
    exact ⟨first, kind.trans kind'⟩

/-- The mode, the guard, a reset and the drives stand. -/
theorem same (h : StaysStill s u) (hm : t.mc = u.mc := by rfl) (hd : t.drives = u.drives := by rfl)
    (hr : t.inReset = u.inReset := by rfl) : StaysStill s t := by
  have drive : ∀ l, t.drive l = u.drive l := fun l => by unfold State.drive; rw [hd]
  refine h.trans ⟨hr, congrArg _ hm, .inl (congrArg ModeController.mode hm), fun _ l driven => ?_⟩
  unfold Driven at driven ⊢
  rw [drive] at driven ⊢
  exact ⟨driven, rfl⟩

/-- In RUN and DRAIN a drive may do anything. -/
theorem begins (h : StaysStill s u) (attends : u.mode = .run ∨ u.mode = .drain) (hm : t.mc = u.mc := by rfl)
    (hr : t.inReset = u.inReset := by rfl) : StaysStill s t := by
  exact h.trans ⟨hr, congrArg _ hm, .inl (congrArg ModeController.mode hm),
    fun still => absurd still (not_stopped_of_attending attends)⟩

/-- A drive goes on as it was, or is driven no more. -/
theorem modDrive (h : StaysStill s u) (l : Lane) (f : Drive → Drive)
    (hf : (f (u.drive l)).driven = true → (u.drive l).driven = true ∧ (f (u.drive l)).kind = (u.drive l).kind) :
    StaysStill s (u.modDrive l f) := by
  refine h.trans ⟨rfl, rfl, .inl rfl, fun _ m driven => ?_⟩
  rw [← driven_iff] at driven ⊢
  rw [State.drive_modDrive] at driven ⊢
  split at driven
  · rename_i e; subst e; rw [if_pos rfl]; exact hf driven
  · rename_i ne; rw [if_neg ne]; exact ⟨driven, rfl⟩

/-- A drive enters RECOVER, or IDLE (R137). -/
theorem driveRecover (h : StaysStill s u) (l : Lane) : StaysStill s (u.driveRecover l) := by
  refine h.modDrive l _ (fun driven => ?_)
  split at driven <;> simp [Drive.driven, Drive.reset] at driven

theorem forLanes (h : StaysStill s u) {f : State → Lane → State}
    (hf : ∀ v l, StaysStill s v → StaysStill s (f v l)) : StaysStill s (u.forLanes f) :=
  State.forLanes_keeps (P := StaysStill s) u h hf

/-! ### Tickets -/

theorem releaseOf (h : StaysStill s u) (t : Ticket) : StaysStill s (u.releaseOf t) :=
  h.same (State.releaseOf_mc _ _) (State.releaseOf_drives _ _) (Steady.releaseOf _ _).inReset

theorem disarm (h : StaysStill s u) (l : Lane) : StaysStill s (u.disarm l) :=
  h.same (State.disarm_mc _ _) (State.disarm_drives _ _) (Steady.disarm _ _).inReset

theorem disarmOf (h : StaysStill s u) (t : Ticket) : StaysStill s (u.disarmOf t) :=
  h.same (State.mc_disarmOf _ _) (State.drives_disarmOf _ _) (Steady.disarmOf _ _).inReset

theorem countRunOff (h : StaysStill s u) (r : Reason) : StaysStill s (u.countRunOff r) := by
  unfold State.countRunOff; split
  · exact h.same
  · exact h

theorem flush (h : StaysStill s u) : StaysStill s u.flush :=
  h.same (State.mc_flush u) (State.drives_flush u) (Steady.flush u).inReset

/-- Every fire stroke ends at the entry into SETUP, and no drive's turn begins one (R163). -/
theorem enterSetup (h : StaysStill s u) : StaysStill s u.enterSetup := by
  have kept : ∀ l, Driven u.enterSetup l → u.enterSetup.drive l = u.drive l ∧ (u.drive l).inTest = true := by
    intro l driven
    have turn := congrArg Prod.fst (enterSetup_lane u l)
    dsimp only at turn
    rw [← driven_iff, turn] at driven
    rw [turn]
    split at driven
    · dsimp only at driven
      split at driven <;> simp [Drive.driven, Drive.reset, recovering] at driven
    · rename_i stays
      rw [if_neg stays]
      exact ⟨rfl, by simpa [show (u.drive l).driven = true from driven] using stays⟩
  obtain ⟨d, c, entered⟩ := enterSetup_eq u
  refine h.trans ⟨by rw [entered], by rw [entered], .inr ⟨by rw [entered]; rfl, fun l driven => ?_⟩,
    fun _ l driven => ?_⟩
  · obtain ⟨drive, test⟩ := kept l driven
    unfold InTest
    rw [drive]
    exact (driven_of_inTest test).2
  · obtain ⟨drive, test⟩ := kept l driven
    exact ⟨(driven_of_inTest test).1, by rw [drive]⟩

theorem drainCheck (h : StaysStill s u) : StaysStill s u.drainCheck := ite_keeps h.enterSetup h

theorem retire (h : StaysStill s u) (k : Slot) (o : TicketOutcome) : StaysStill s (u.retire k o) := by
  unfold State.retire; split
  · exact h
  · exact (h.same (State.mc_remove _ _ _) (State.drives_remove _ _ _) (Steady.remove _ _ _).inReset).drainCheck

theorem sendToRunOff (h : StaysStill s u) (k : Slot) (r : Reason) : StaysStill s (u.sendToRunOff k r) := by
  have off : StaysStill s (u.modTicket k (fun t => { t with
    state := .runningOff, dest := some .runOff, reason := some r, joined := false, nominal := none, span := none })) :=
    h.same
  have bounded : StaysStill s (State.storeBounds _ k) := (off.countRunOff r).same
  exact ite_keeps (bounded.retire k _) bounded

/-! ### Diverts -/

theorem missFire (h : StaysStill s u) (l : Lane) (t : Ticket) : StaysStill s (u.missFire l t) := by
  have freed : StaysStill s (u.modChannel l (fun c => { c with armed := none })) := h.same
  exact (freed.releaseOf t).sendToRunOff _ _

/-- A fire begins or extends a stroke in RUN and DRAIN alone (R119). -/
theorem fire (h : StaysStill s u) (l : Lane) (late : Bool) : StaysStill s (u.fire l late) := by
  obtain e | ⟨t, v, -, hv, cases⟩ := fire_cases u l late
  · rw [e]; exact h
  have marked : StaysStill s v := by subst hv; exact ite_keeps h.same h
  obtain ⟨-, e⟩ | ⟨-, e⟩ | ⟨attends, ⟨-, e⟩ | ⟨-, e⟩ | ⟨-, e⟩⟩ := cases <;> rw [e]
  · exact marked
  · exact marked.missFire l t
  · exact marked.begins attends
  · refine marked.begins attends ?_ (Steady.extendStroke v l t).inReset
    unfold State.extendStroke; split <;> rfl
  · exact marked.begins attends

theorem attendLane (h : StaysStill s u) (l : Lane) : StaysStill s (u.attendLane l) :=
  attend_keeps (P := StaysStill s) (fun _ k => k.disarm l) (fun _ _ k _ _ => k.same) (fun _ k => k.fire l true) _ u h

theorem attendAll (h : StaysStill s u) : StaysStill s u.attendAll := h.forLanes (fun _ l k => k.attendLane l)

theorem recomputeLane (h : StaysStill s u) (l : Lane) : StaysStill s (u.recomputeLane l) := by
  unfold State.recomputeLane; split
  · exact h
  · rename_i a _
    split
    · rename_i t _ _
      have planned : StaysStill s ((u.modChannel l (fun c => { c with armed := some { a with
          lead := u.lead l, planned := t.nominal.getD 0 - toCount (u.lead l) } })).modTicket a.slot
            (fun v => { v with fireCount := some (t.nominal.getD 0 - toCount (u.lead l)) })) := h.same
      exact ite_keeps ((planned.fire l true).attendLane l) planned
    all_goals exact h

theorem judgeDeferred (h : StaysStill s u) (l : Lane) : StaysStill s (u.judgeDeferred l) := by
  have miss := fun t => (h.missFire l t).attendLane l
  have begun : ∀ t, u.mode = .run ∨ u.mode = .drain → StaysStill s ((u.beginStroke l t).attendLane l) :=
    fun t attends => (h.begins (t := u.beginStroke l t) attends).attendLane l
  unfold State.judgeDeferred; split
  · split
    · exact h
    · split
      · exact h
      · exact miss _
      · exact ite_keeps (miss _) (begun _ (.inl ‹_›))
      · exact ite_keeps (miss _) (begun _ (.inr ‹_›))
  all_goals exact h

theorem recoverLane (h : StaysStill s u) (l : Lane) : StaysStill s (u.recoverLane l) :=
  ite_keeps ((h.driveRecover l).judgeDeferred l) (h.driveRecover l)

/-- The recovery time elapsed: the drive is IDLE, and any deferred fire is judged (R123, R137). -/
theorem endRecovery (h : StaysStill s u) (l : Lane) : StaysStill s (u.endRecovery l) := by
  have idle : StaysStill s (u.modDrive l (fun _ => Drive.reset)) := h.modDrive l _ nofun
  exact idle.judgeDeferred l

theorem takeTestEnd (h : StaysStill s u) (l : Lane) : StaysStill s (u.takeTestEnd l) := by
  unfold State.takeTestEnd; split
  · exact h.recoverLane l
  · exact h.modDrive l _ (fun driven => ⟨driven, rfl⟩)
  · exact h
  · exact h

/-- The stroke end count reached ends a stroke as a test end does, once its channel is no longer open (R125, R141). -/
theorem strokeEnds (h : StaysStill s u) (l : Lane) : StaysStill s (u.strokeEnds l) := by
  have closed : StaysStill s ((u.closeChannel l).endStroking l id) := h.same
  exact closed.takeTestEnd l

theorem capStroke (h : StaysStill s u) (l : Lane) : StaysStill s (u.capStroke l) := by
  have closed : StaysStill s ((u.endStroking l (fun m => { m with capped := true })).closeChannel l) := h.same
  unfold State.capStroke; split
  · exact closed.recoverLane l
  · exact h.recoverLane l
  · exact h.recoverLane l

theorem abortLane (h : StaysStill s u) (l : Lane) : StaysStill s (u.abortLane l) := by
  have closed : StaysStill s ((u.endStroking l (fun m => { m with aborted := true })).closeChannel l) := h.same
  exact ite_keeps (closed.recoverLane l) h

theorem endTestStrokes (h : StaysStill s u) : StaysStill s u.endTestStrokes :=
  h.forLanes (fun _ l k => ite_keeps (k.driveRecover l) k)

/-- A drive in PULL goes on to HOLD or to RECOVER (R136). -/
theorem leavePull (h : StaysStill s u) {l : Lane} (elapsed : u.timeLeft (.pull l) = some 0) :
    StaysStill s (u.leavePull l) := by
  have pull : (u.drive l).state = .pull := by
    by_contra ne
    simp [State.timeLeft, ne] at elapsed
  exact ite_keeps (h.recoverLane l) (h.modDrive l _ (fun _ => ⟨driven_iff.mpr (.inl pull), rfl⟩))

/-! ### Resolution and lane states -/

theorem writeWalk (h : StaysStill s u) (k : Slot) (c : WareClass) (w : WalkEnd) : StaysStill s (u.writeWalk k c w) := by
  have noted : StaysStill s (u.modTicket k (fun t => { t with hops := w.hops })) := h.same
  unfold State.writeWalk; split
  · exact h.same
  · exact noted.sendToRunOff k _

theorem split (h : StaysStill s u) (k : Slot) : StaysStill s (u.split k) := by
  unfold State.split; split
  · exact h
  · exact ite_keeps (((h.disarmOf _).releaseOf _).sendToRunOff _ _) h

theorem judgePair (h : StaysStill s u) (passing : List Slot) (x y : Slot) : StaysStill s (u.judgePair passing x y) := by
  have joined : ∀ b, StaysStill s (u.writeJoined y b) := fun _ => h.same
  unfold State.judgePair; split
  · exact ite_keeps h (ite_keeps (ite_keeps (joined true) (((joined false).split x).split y)) (joined false))
  all_goals exact h

theorem crowd (h : StaysStill s u) (k : Slot) (passing : List Slot) : StaysStill s (u.crowd k passing) := by
  unfold State.crowd; dsimp only
  split <;> split
  · exact (h.judgePair _ _ _).judgePair _ _ _
  · exact h.judgePair _ _ _
  · exact h.judgePair _ _ _
  · exact h

theorem resolve (h : StaysStill s u) (k : Slot) (c : Cause) : StaysStill s (u.resolve k c) := by
  have streaked : StaysStill s (u.streak c) := ite_keeps h.same (ite_keeps h.same h.same)
  unfold State.resolve; split
  · exact h
  · rename_i t _
    have noted : StaysStill s ((u.streak c).modTicket k (fun v => { v with
      tag := none, windowEnd := none, outlet := ((u.streak c).startCase t c).outlet
      cls := some ((u.streak c).startCase t c).cls })) := streaked.same
    exact ite_keeps ((noted.writeWalk k _ _).crowd k []).attendAll h

theorem reresolve (h : StaysStill s u) (l : Lane) (k : Slot) (passing : List Slot) :
    StaysStill s (u.reresolve l k passing) := by
  unfold State.reresolve; split
  · exact h
  · exact ite_keeps ((((h.disarmOf _).releaseOf _).writeWalk k _ _).crowd k passing) h

theorem changeLaneState (h : StaysStill s u) (l : Lane) (new : LaneState) : StaysStill s (u.changeLaneState l new) := by
  have passed : ∀ v, StaysStill s v → StaysStill s
      (if (u.lane l).state = .opened ∧ new ≠ .opened then v.reresolutionPass l else v) := fun v k =>
    ite_keeps (passOver_keeps (P := StaysStill s) (fun _ _ _ kw => kw.reresolve l _ _) _ v k).attendAll k
  obtain ⟨v, hv, e⟩ := changeLaneState_eq u l new
  rw [e]
  obtain rfl | ⟨f, rfl⟩ := hv
  · exact passed _ h.same
  · exact passed _ h.same

/-- A lane's record changes, and its state may follow. -/
theorem modLane (h : StaysStill s u) (l : Lane) (f : LaneRecord → LaneRecord) : StaysStill s (u.modLane l f) := h.same

theorem addFill (h : StaysStill s u) (l : Lane) : StaysStill s (u.addFill l) :=
  ite_keeps ((h.modLane l _).changeLaneState l _) (h.modLane l _)

theorem countFailure (h : StaysStill s u) (l : Lane) : StaysStill s (u.countFailure l) :=
  ite_keeps ((h.modLane l _).changeLaneState l _) (h.modLane l _)

theorem expireEnd (h : StaysStill s u) (k : Slot) : StaysStill s (u.expireEnd k) := by
  unfold State.expireEnd; split
  · exact h
  · split
    · exact (h.retire k _).addFill _
    · exact h.retire k _
    · exact h.retire k _
    all_goals exact h

theorem closeConfirm (h : StaysStill s u) (k : Slot) : StaysStill s (u.closeConfirm k) := by
  unfold State.closeConfirm; split
  · exact h
  · rename_i t _
    split
    · exact h
    · rename_i l _
      have doubted : StaysStill s ((u.releaseOf t).modTicket k (fun t => { t with state := .doubt, closeCount := none })) :=
        (h.releaseOf t).same
      have bounded : StaysStill s (State.storeBounds _ k) :=
        (ite_keeps (c := t.joined = true) doubted (doubted.countFailure l)).same
      exact ite_keeps (bounded.expireEnd k) bounded

/-! ### The part's own course -/

/-- Time passes in every drive without a stroke beginning or ending. -/
theorem elapse (h : StaysStill s u) (n : Nat) : StaysStill s (u.elapse n) := by
  unfold State.elapse; split
  · exact h.same
  · refine StaysStill.forLanes h.same (fun v l k => k.modDrive l _ (fun driven => ?_))
    unfold Drive.driven Drive.elapse at *
    cases state : (v.drive l).state <;> simp_all

/-- A soft reset stills every drive and makes the mode SETUP (R166). -/
theorem softReset (h : StaysStill s u) : StaysStill s u.softReset := by
  have cleared : StaysStill s u.flush.clearFailures := h.flush.forLanes (fun _ l k => k.modLane l _)
  unfold State.softReset
  generalize u.flush.clearFailures = v at cleared ⊢
  have still : ∀ w : State, w.drives = Vector.replicate 12 .reset → ∀ l, ¬ Driven w l := fun w reset l => by
    have idle : w.drive l = Drive.reset := by simp [State.drive, reset]
    unfold Driven
    rw [idle]
    simp [Drive.reset]
  exact cleared.trans ⟨rfl, rfl, .inr ⟨rfl, fun l driven => absurd driven (still _ rfl l)⟩,
    fun _ l driven => absurd driven (still _ rfl l)⟩

/-- The part's own course breaks the stillness nowhere. -/
theorem own (s : State) : OwnKept (StaysStill s) where
  alike h e := h.same e.mc e.drives e.inReset
  elapse n h := h.elapse n
  record _ _ _ h := h.same
  clearEye h := h.same
  resolve k c h := h.resolve k c
  recomputeLeads h := h.forLanes (fun _ l k => k.recomputeLane l)
  takeDueFire l h := (h.fire l false).attendLane l
  strokeEnds l h := h.strokeEnds l
  closeConfirm k h := h.closeConfirm k
  expireEnd k h := h.expireEnd k
  leavePull _ elapsed h := h.leavePull elapsed
  capStroke l _ h := h.capStroke l
  endRecovery l _ h := h.endRecovery l
  takeTestEnd l _ h := h.takeTestEnd l
  softReset h := h.softReset

end StaysStill
end Sys2Proof.Safety
end

section
/-! The stillness of the diverters through eye edges, reports and the operations that commands consist of. -/

namespace Sys2Proof.Safety.StaysStill

open Sys2Proof.Machine

variable {s u : State}

/-! ### Eyes -/

theorem laneEyeLeads (h : StaysStill s u) (l : Lane) : StaysStill s (u.laneEyeLeads l) := by
  have sighted : StaysStill s (u.sightLane l) := by
    unfold State.sightLane; split
    · exact (h.modLane l _).addFill l
    · exact ((h.retire _ _).modLane l _).addFill l
  unfold State.laneEyeLeads; split
  · exact h
  all_goals exact sighted

theorem endEyeLeads (h : StaysStill s u) : StaysStill s u.endEyeLeads := by
  have blocked : StaysStill s { u with em := { u.em with eye := .blocked } } := h.same
  have sighted : StaysStill s (State.sightEnd { u with em := { u.em with eye := .blocked } }) := by
    unfold State.sightEnd; split
    · exact blocked.retire _ _
    · exact h.same
  unfold State.endEyeLeads; split
  · exact h
  · dsimp only; split
    · exact blocked
    all_goals exact sighted

theorem inductionTrails (h : StaysStill s u) : StaysStill s u.inductionTrails := by
  have cleared : StaysStill s { u with ind := { u.ind with eye := .clear } } := h.same
  unfold State.inductionTrails; split
  · exact h
  · dsimp only; split
    · exact cleared
    all_goals exact (own s).endUnderEye _ cleared

theorem openTicket (h : StaysStill s u) (k : Slot) (tag : Tag) : StaysStill s (u.openTicket k tag) := by
  have allocated : StaysStill s (u.allocate k tag) := ite_keeps h.same h.same
  exact ite_keeps allocated.same allocated.same

theorem induct (h : StaysStill s u) : StaysStill s u.induct := by
  have opens : ∀ {v : State}, StaysStill s v → StaysStill s (match v.mode, v.freeSlot? with
      | .setup, _ => v
      | _, none => v
      | _, some k => v.openTicket k u.ind.nextTag) := by
    intro v hv; split
    · exact hv
    · exact hv
    · exact hv.openTicket _ _
  have advanced : StaysStill s { u with ind := { u.ind with nextTag := u.ind.nextTag + 1 } } := h.same
  unfold State.induct; split
  · exact h.same
  · refine opens ?_
    split
    · exact advanced
    · exact advanced.resolve _ _

theorem inductionLeads (h : StaysStill s u) : StaysStill s u.inductionLeads := by
  have blocked : StaysStill s { u with ind := { u.ind with eye := .blocked } } := h.same
  unfold State.inductionLeads; split
  · exact h
  · dsimp only; split
    · exact blocked
    all_goals exact blocked.induct

/-! ### The reader line -/

theorem report (h : StaysStill s u) (tag : Tag) (p f st : Byte) : StaysStill s (u.report tag p f st) := by
  unfold State.report; split
  · exact h.same
  · have noted : ∀ k w, StaysStill s (u.modTicket k (fun t => { t with quality := some (st.truncate 4), ware := w })) :=
      fun _ _ => h.same
    exact ite_keeps h.same (ite_keeps (ite_keeps h.same ((noted _ _).resolve _ _)) (noted _ _))

theorem readerReceives (h : StaysStill s u) (c : LineChar) : StaysStill s (u.readerReceives c) := by
  have marked : StaysStill s (u.readerMarked c.value) := by
    unfold State.readerMarked
    cases u.rli.assembly <;> exact ite_keeps h.same h.same
  have data : StaysStill s (u.readerData c.value) := by
    unfold State.readerData; split
    · exact h
    · exact h.same
    · exact h.same
    · exact (h.same : StaysStill s (u.setAssembly .waitHeader)).report _ _ _ _
  exact ite_keeps (ite_keeps marked data) h.same

/-! ### Commands -/

theorem writeLanes (h : StaysStill s u) (a : Byte) (rs : List LaneWrite) : StaysStill s (cmdWriteLanes a rs u).1 := by
  refine StepKept.answer_ite h (StepKept.answer_ite h (StepKept.answer_ite h ?_))
  split
  · exact h
  · rename_i configs _
    obtain ⟨v, written⟩ := TableSound.configureFrom_lanes u a.toNat configs
    dsimp only
    rw [written]
    exact h.same

theorem blockWrite {α β : Type} {n : Nat} (first : Byte) (rs : List α) (f : α → Option β) (entry : β → α → Bool)
    (v : Vector β n) {c : Vector β n → Catalogue} (h : StaysStill s u) :
    StaysStill s (u.blockWrite first rs f entry v (fun v => { u with cat := c v })).1 := by
  refine StepKept.answer_ite h (StepKept.answer_ite h ?_)
  split
  · exact h
  · exact h.same

theorem writeGeometry (h : StaysStill s u) (r : GeometryRecord) : StaysStill s (cmdWriteGeometry r u).1 :=
  StepKept.answer_ite h (StepKept.answer_ite h (ite_keeps ((own s).stopBelt h.same) h.same))

theorem writeSettings (h : StaysStill s u) (r : SettingsWrite) : StaysStill s (cmdWriteSettings r u).1 := by
  unfold cmdWriteSettings; split
  · exact h
  · exact h
  · exact h.same

theorem openLane (h : StaysStill s u) (b : Byte) : StaysStill s (cmdOpenLane b u).1 := by
  refine StepKept.onLane h b (fun l => StepKept.answer_ite h ?_)
  have opened : StaysStill s (u.openLane l) := (h.modLane l _).changeLaneState l _
  split
  · exact opened
  · exact opened
  · exact h
  · exact h

theorem setCapacity (h : StaysStill s u) (l : Lane) (n : Nat) : StaysStill s (u.setCapacity l n) := by
  have written := h.modLane l (fun r => { r with capacity := n })
  unfold State.setCapacity; dsimp only; split
  · exact ite_keeps (written.changeLaneState l _) written
  · exact ite_keeps (written.changeLaneState l _) written
  · exact written
  · exact written

theorem exchangeRack (h : StaysStill s u) (l : Lane) : StaysStill s (u.exchangeRack l) :=
  ite_keeps ((h.modLane l _).changeLaneState l _) (h.modLane l _)

theorem applyRedirect (h : StaysStill s u) (t : Ticket) (d : Dest) : StaysStill s (u.applyRedirect t d) := by
  have released : StaysStill s (((u.disarmOf t).releaseOf t).modTicket t.slot (fun t =>
    { t with hops := 0, marks := {}, fireCount := none })) := ((h.disarmOf t).releaseOf t).same
  unfold State.applyRedirect
  cases d with
  | lane l => exact ((released.same : StaysStill s (State.giveLane _ _ _ l _ _)).crowd _ _).attendAll
  | runOff =>
    refine (crowd ?_ _ _).attendAll
    dsimp only
    unfold State.redirectToRunOff; split
    · exact released.sendToRunOff _ _
    · exact released.same

theorem redirect (h : StaysStill s u) (a b c : Byte) : StaysStill s (cmdRedirect a b c u).1 := by
  refine StepKept.answer_ite h (StepKept.answer_ite h ?_)
  split
  · exact h
  · exact h
  · refine StepKept.answer_ite h (StepKept.answer_ite h (StepKept.answer_ite h ?_))
    dsimp only
    exact h.applyRedirect _ _

theorem pull (h : StaysStill s u) (a b : Byte) : StaysStill s (cmdPull a b u).1 := by
  refine StepKept.answer_ite h (StepKept.answer_ite h ?_)
  split
  · exact h
  · rename_i t _
    have pulled : StaysStill s (u.pullTicket t) := by
      unfold State.pullTicket; split
      · exact (h.retire _ _).attendLane _
      · exact h.retire _ _
    exact StepKept.answer_ite h pulled

end Sys2Proof.Safety.StaysStill
end

section
/-! The stillness of the diverters through the changes of mode and guard, the test stroke and the resets, and through every
row of the table. A command that passes its tests may break the stillness of a part in reset, but no command is taken there
(R165), so the rows are taken in a running part. -/

namespace Sys2Proof.Safety

open Sys2Proof.Machine

theorem StaysStill.divertersStill {s t : State} (k : StaysStill s t) (h : DivertersStill s) : DivertersStill t where
  openGuardStops opened := k.stopped (h.openGuardStops (k.guard ▸ opened))
  stillInHold hold l driven := by
    have before : InHold s := by
      obtain same | ⟨setup, -⟩ := k.mode
      · exact (inHold_congr same).mp hold
      · exact absurd hold (not_inHold_of_setup setup)
    exact h.stillInHold before l (k.drives (.inr before) l driven).1
  stillWhenOpen opened l driven := by
    have before : s.mc.guard = .opened := k.guard ▸ opened
    exact h.stillWhenOpen before l (k.drives (h.openGuardStops before) l driven).1
  onlyTestsInSetup setup l driven := by
    obtain same | ⟨-, tests⟩ := k.mode
    · have before : s.mode = .setup := same ▸ setup
      obtain ⟨first, kind⟩ := k.drives (.inl before) l driven
      obtain ⟨e, test⟩ := h.onlyTestsInSetup before l first
      exact ⟨e, kind.trans test⟩
    · exact tests l driven
  stillInReset reset := by
    obtain ⟨before, still⟩ := h.stillInReset (k.inReset ▸ reset)
    exact ⟨k.mode.elim (·.trans before) And.left, fun l driven => still l (k.drives (.inl before) l driven).1⟩

/-- A running part with its diverters still. -/
structure RunningStill (s : State) : Prop where
  running : Running s
  still : DivertersStill s

end Sys2Proof.Safety

namespace Sys2Proof.Machine

/-- After every lane's turn each lane's own property holds, when under what all turns keep its turn brings it about and no
later turn undoes it. -/
theorem State.forLanes_each_of {P : Lane → State → Prop} {Q : State → Prop} {f : State → Lane → State} (s : State)
    (start : Q s) (kept : ∀ s l, Q s → Q (f s l)) (make : ∀ s l, Q s → P l (f s l))
    (keep : ∀ s l m, Q s → P l s → P l (f s m)) (l : Lane) : P l (s.forLanes f) := by
  have key : ∀ (ls : List Lane) (u : State), Q u → (l ∈ ls ∨ P l u) → P l (ls.foldl f u) := by
    intro ls
    induction ls with
    | nil => intro u _ h; simpa using h
    | cons m ls ih =>
      intro u hu h
      refine ih _ (kept u m hu) ?_
      obtain h | h := h
      · obtain rfl | later := List.mem_cons.mp h
        · exact .inr (make u l hu)
        · exact .inl later
      · exact .inr (keep u l m hu h)
  exact key allLanes s start (.inl (mem_allLanes l))

end Sys2Proof.Machine

namespace Sys2Proof.Safety.RunningStill

open Sys2Proof.Machine

variable {s t : State}

theorem keeps (h : RunningStill s) (k : StaysStill s t) : RunningStill t :=
  ⟨k.inReset.trans h.running, k.divertersStill h.still⟩

theorem alike (h : RunningStill s) (hm : t.mc = s.mc := by rfl) (hd : t.drives = s.drives := by rfl)
    (hr : t.inReset = s.inReset := by rfl) : RunningStill t := h.keeps ((StaysStill.refl s).same hm hd hr)

/-! ### Modes -/

/-- In RUN and DRAIN the guard is closed, and no more is asked. -/
theorem of_attending (running : Running s) (closed : s.mc.guard = .closed) (mode : s.mode = .run ∨ s.mode = .drain) :
    RunningStill s where
  running := running
  still :=
    { openGuardStops := fun opened => nomatch closed.symm.trans opened
      stillInHold := fun hold => absurd (.inr hold) (not_stopped_of_attending mode)
      stillWhenOpen := fun opened => nomatch closed.symm.trans opened
      onlyTestsInSetup := fun setup => absurd (.inl setup) (not_stopped_of_attending mode)
      stillInReset := fun reset => absurd running reset }

/-- In SETUP and HOLD it is enough that no diverter is driven. -/
theorem of_undriven (running : Running s) (mode : s.mode = .setup ∨ InHold s) (undriven : ∀ l, ¬ Driven s l) :
    RunningStill s where
  running := running
  still := ⟨fun _ => mode, fun _ => undriven, fun _ => undriven, fun _ l driven => absurd driven (undriven l),
    fun reset => absurd running reset⟩

/-- RUN or DRAIN is entered from any mode with the guard closed. -/
theorem setMode_attending (running : Running s) (closed : s.mc.guard = .closed) {m : Mode}
    (mode : m = .run ∨ m = .drain) : RunningStill (s.setMode m) := of_attending running closed mode

theorem guard_closed (h : RunningStill s) (mode : s.mode = .run ∨ s.mode = .drain) : s.mc.guard = .closed := by
  cases guard : s.mc.guard with
  | closed => rfl
  | opened => exact absurd (h.still.openGuardStops guard) (not_stopped_of_attending mode)

/-- The abort of a lane's stroke in HOLD leaves its diverter still, and no fire is taken within it (R139, R124). -/
theorem abortLane_undriven (h : s.mode = .setup ∨ InHold s) (l : Lane) : ¬ Driven (s.abortLane l) l := by
  unfold State.abortLane; split
  · have closed : StaysStill s ((s.endStroking l (fun m => { m with aborted := true })).closeChannel l) :=
      (StaysStill.refl s).same
    have stops := (closed.driveRecover l).stopped h
    generalize (s.endStroking l (fun m => { m with aborted := true })).closeChannel l = u at stops ⊢
    have judged := ite_keeps (P := StaysStill (u.driveRecover l)) (c := ((u.driveRecover l).drive l).state = .idle)
      ((StaysStill.refl _).judgeDeferred l) (StaysStill.refl _)
    exact fun driven => not_driven_driveRecover u l (judged.drives stops l driven).1
  · rename_i undriven
    rwa [← driven_iff]

/-- The entry into HOLD aborts every stroke (R139, R159). -/
theorem enterHold (running : Running s) (m : HeldFrom) : RunningStill (s.enterHold m) := by
  have held : InHold ((s.setMode (.hold m)).raise .holdEntered) := inHold_iff.mpr ⟨m, rfl⟩
  have running' : Running ((s.setMode (.hold m)).raise .holdEntered) := running
  unfold State.enterHold
  generalize (s.setMode (.hold m)).raise .holdEntered = u at held running' ⊢
  have aborted := (StaysStill.refl u).forLanes (fun _ l k => k.abortLane l)
  refine of_undriven (aborted.inReset.trans running') (aborted.stopped (.inr held)) ?_
  refine State.forLanes_each_of (P := fun l v => ¬ Driven v l) (Q := fun v => v.mode = .setup ∨ InHold v) u (.inr held)
    (fun v l stops => ((StaysStill.refl v).abortLane l).stopped stops)
    (fun v l stops => abortLane_undriven stops l) (fun v l n stops undriven driven => undriven ?_)
  exact (((StaysStill.refl v).abortLane n).drives stops l driven).1

/-- In SETUP, where test strokes alone are driven, the end of the test strokes leaves no diverter driven (R141). -/
theorem endTestStrokes_undriven (setup : s.mode = .setup) (tests : ∀ l, Driven s l → InTest s l) (l : Lane) :
    ¬ Driven s.endTestStrokes l := by
  intro driven
  obtain ⟨before, -⟩ := (StaysStill.refl s).endTestStrokes.drives (.inl setup) l driven
  obtain ⟨e, test⟩ := tests l before
  have inTest : (s.drive l).inTest = true := by
    unfold Drive.inTest
    rw [driven_iff.mpr before, test]
    rfl
  exact endTestStrokes_not_driven inTest driven

/-- The opening of the guard ends every stroke (R141, R160). -/
theorem guardOpens (h : RunningStill s) : RunningStill s.guardOpens := by
  have running : Running { s with mc := { s.mc with guard := .opened } } := h.running
  unfold State.guardOpens; split
  · exact h
  · dsimp only; split
    · exact enterHold running _
    · exact enterHold running _
    · rename_i m hold
      have held : InHold s := inHold_iff.mpr ⟨m, hold⟩
      exact of_undriven running (.inr held) (h.still.stillInHold held)
    · rename_i setup
      have tests : ∀ l, Driven { s with mc := { s.mc with guard := .opened } } l → _ :=
        h.still.onlyTestsInSetup setup
      exact of_undriven (((StaysStill.refl _).endTestStrokes.inReset).trans running)
        ((StaysStill.refl _).endTestStrokes.stopped (.inl setup)) (endTestStrokes_undriven setup tests)

theorem guardCloses (h : RunningStill s) : RunningStill { s with mc := { s.mc with guard := .closed } } where
  running := h.running
  still := ⟨nofun, h.still.stillInHold, nofun, h.still.onlyTestsInSetup, h.still.stillInReset⟩

theorem modeAnswer (h : RunningStill s) (st : Status) : RunningStill (s.modeAnswer st).1 := h

theorem hold (h : RunningStill s) : RunningStill (cmdHold s).1 := by
  unfold cmdHold; split
  · exact h.modeAnswer _
  · exact (enterHold h.running .run).modeAnswer _
  · exact (enterHold h.running .drain).modeAnswer _
  · exact h.modeAnswer _

/-- RESUME is taken with the guard closed alone, whatever reaches are taken first (R161). -/
theorem resume (h : RunningStill s) : RunningStill (cmdResume s).1 := by
  unfold cmdResume; split
  · rename_i m _ closed
    have settled := (StaysStill.own s).settle (StaysStill.refl s)
    have resumed := setMode_attending (m := m.mode) (settled.inReset.trans h.running) (settled.guard.trans closed)
      (by cases m; exacts [.inl rfl, .inr rfl])
    exact (resumed.keeps (StaysStill.refl _).drainCheck).modeAnswer _
  all_goals exact h.modeAnswer _

/-- RUN is entered with the guard closed alone (R156). -/
theorem enterRun (h : RunningStill s) : RunningStill s.enterRun.1 := by
  unfold State.enterRun; split
  · exact h
  · split
    · exact h.modeAnswer _
    · rename_i closed
      have ended := (StaysStill.refl s).endTestStrokes
      exact (setMode_attending (ended.inReset.trans h.running) (ended.guard.trans closed) (.inl rfl)).modeAnswer _

theorem setMode (h : RunningStill s) (m : Byte) : RunningStill (cmdSetMode m s).1 := by
  unfold cmdSetMode; split
  case h_4 =>
    have setup : RunningStill s.flushToSetup := by
      unfold State.flushToSetup
      exact h.keeps (t := s.flush.enterSetup) (StaysStill.refl s).flush.enterSetup
    exact setup.modeAnswer _
  case h_5 => exact h.enterRun
  case h_7 mode =>
    exact (setMode_attending h.running (h.guard_closed (.inr mode)) (.inl rfl)).modeAnswer _
  case h_10 mode =>
    have drain := setMode_attending h.running (h.guard_closed (.inl mode)) (.inr rfl)
    exact (drain.keeps (StaysStill.refl _).drainCheck).modeAnswer _
  all_goals exact h.modeAnswer _

/-- A test stroke begins in SETUP with the guard closed alone (R140). -/
theorem testStroke (h : RunningStill s) (b d : Byte) : RunningStill (cmdTestStroke b d s).1 := by
  unfold cmdTestStroke; split
  · exact h
  rename_i mode
  have setup : s.mode = .setup := not_not.mp mode
  split
  · exact h
  rename_i l _
  split
  · exact h
  rename_i notOpened
  refine StepKept.answer_ite h ⟨h.running, fun opened => absurd opened notOpened, fun hold => ?_,
    fun opened => absurd opened notOpened, fun _ m driven => ?_, fun reset => absurd h.running reset⟩
  · exact absurd hold (not_inHold_of_setup setup)
  · unfold InTest Driven at *
    dsimp only [State.startStroke] at driven ⊢
    rw [State.drive_modDrive] at driven ⊢
    split at driven
    · rename_i e
      rw [if_pos e]
      exact ⟨_, rfl⟩
    · rename_i ne
      rw [if_neg ne]
      exact h.still.onlyTestsInSetup setup m driven

/-! ### Commands -/

/-- Every command of the line keeps a running part's diverters still. -/
theorem everyCommand : EveryCommand (fun f => ∀ {s : State}, RunningStill s → RunningStill (f s).1) where
  unknown h := h
  readStatus h := h
  ackAttention _ _ h := h.alike
  setMask _ _ h := h.alike
  readReaderCounters h := h
  setMode m _ h := h.setMode m
  hold h := h.hold
  resume h := h.resume
  softReset h := h
  writeGeometry r s h := h.keeps ((StaysStill.refl s).writeGeometry r)
  writeLanes a rs s h := h.keeps ((StaysStill.refl s).writeLanes a rs)
  writeCarrier _ _ h := StepKept.answer_ite h (StepKept.answer_ite h h.alike)
  testStroke l d _ h := h.testStroke l d
  openLane b s h := h.keeps ((StaysStill.refl s).openLane b)
  closeLane b s h := StepKept.onLane h b (fun l => h.keeps ((StaysStill.refl s).changeLaneState l _))
  setCapacity b _ s h := StepKept.onLane h b (fun l => h.keeps ((StaysStill.refl s).setCapacity l _))
  rackExchanged b s h := StepKept.onLane h b (fun l => h.keeps ((StaysStill.refl s).exchangeRack l))
  readLanes _ _ _ h := StepKept.answer_ite h (StepKept.answer_ite h h)
  writePatterns _ _ s h := h.keeps ((StaysStill.refl s).blockWrite _ _ _ _ _)
  writeForms _ _ s h := h.keeps ((StaysStill.refl s).blockWrite _ _ _ _ _)
  writeClasses _ _ s h := h.keeps ((StaysStill.refl s).blockWrite _ _ _ _ _)
  writeRoutes _ _ s h := h.keeps ((StaysStill.refl s).blockWrite _ _ _ _ _)
  writeSettings r s h := h.keeps ((StaysStill.refl s).writeSettings r)
  readPatterns _ _ _ h := StepKept.blockRead _ _ _ _ h
  readForms _ _ _ h := StepKept.blockRead _ _ _ _ h
  readClasses _ _ _ h := StepKept.blockRead _ _ _ _ h
  readRoutes _ _ _ h := StepKept.blockRead _ _ _ _ h
  readSettings h := h
  readTicket _ _ _ h := by
    refine StepKept.answer_ite h ?_
    split <;> exact h
  findTickets _ _ _ _ h := by
    refine StepKept.answer_ite h ?_
    split <;> exact h
  redirect a b c s h := h.keeps ((StaysStill.refl s).redirect a b c)
  pull a b s h := h.keeps ((StaysStill.refl s).pull a b)
  readTallies h := h
  clearTallies h := State.forLanes_keeps (P := RunningStill) _ h.alike
    (fun _ l hu => hu.keeps ((StaysStill.refl _).modLane l _))
  readEndMonitor h := h

/-! ### Frames and characters -/

theorem cancelReply (h : RunningStill s) : RunningStill s.cancelReply := by
  unfold State.cancelReply; split
  · exact h
  · exact ite_keeps (h.keeps (StaysStill.refl s).softReset) h.alike

theorem replyDue (h : RunningStill s) (a : Answer) : RunningStill (s.replyDue a) := ite_keeps h h.alike

theorem takeCommand (h : RunningStill s) {f : State → State × Answer}
    (hf : ∀ {u}, RunningStill u → RunningStill (f u).1) : RunningStill (s.takeCommand f) := (hf h.alike).replyDue _

theorem lineMarked (h : RunningStill s) (v : Byte) : RunningStill (s.lineMarked v) :=
  have cancelled := h.cancelReply
  ite_keeps cancelled.alike (ite_keeps cancelled.alike cancelled.alike)

theorem refuseFrame (h : RunningStill s) (st : Status) : RunningStill (s.refuseFrame st) := replyDue h.alike _

theorem commandChar (h : RunningStill s) (code : Byte) : RunningStill (s.commandChar code) := by
  unfold State.commandChar; split
  · split
    · exact hold h.alike
    · exact resume h.alike
    · exact h.alike
  · split
    · exact h.refuseFrame _
    · exact ite_keeps (h.takeCommand (everyCommand.commandOf _ _)) h.alike

theorem paramChar (h : RunningStill s) (code : Byte) (ps : List Byte) (v : Byte) :
    RunningStill (s.paramChar code ps v) := by
  unfold State.paramChar; split
  · exact h.alike
  · exact ite_keeps (h.refuseFrame _) (ite_keeps h.alike (h.takeCommand (everyCommand.commandOf _ _)))

theorem lineData (h : RunningStill s) (v : Byte) : RunningStill (s.lineData v) := by
  have quiet : RunningStill { s with sli := { s.sli with quietTimer := 0 } } := h.alike
  unfold State.lineData; dsimp only; split
  · exact quiet
  · exact quiet
  · exact quiet.commandChar v
  · exact quiet.paramChar _ _ v

theorem lineReceives (h : RunningStill s) (c : LineChar) : RunningStill (s.lineReceives c) :=
  ite_keeps (ite_keeps (h.lineMarked _) (h.lineData _)) (cancelReply h.alike)

end Sys2Proof.Safety.RunningStill
end

section
/-! The stillness of the diverters through every row of the table and every step. -/

namespace Sys2Proof.Safety.DivertersStill

open Sys2Proof.Machine

variable {s t : State}

/-- In a reset the mode is SETUP and nothing is driven, whatever the part did before (R142, R165). -/
theorem held (s : State) (c : ResetCause) (x : Nat) : DivertersStill (s.held c x) := by
  have still : ∀ l, ¬ Driven (s.held c x) l := fun l => by
    simp [Driven, State.held, State.reset, State.drive, Drive.reset]
  exact ⟨nofun, fun _ => still, fun _ => still, fun _ l driven => absurd driven (still l), fun _ => ⟨rfl, still⟩⟩

/-- The release finds SETUP with nothing driven, whatever the guard it samples (R165). -/
theorem released (h : DivertersStill s) (reset : s.inReset ≠ none) (hd : t.drives = s.drives) (hm : t.mode = s.mode)
    (running : Running t) : DivertersStill t := by
  obtain ⟨setup, still⟩ := h.stillInReset reset
  refine (RunningStill.of_undriven running (.inl (hm.trans setup)) (fun l => ?_)).still
  unfold Driven State.drive
  rw [hd]
  exact still l

/-- An event that begins no stroke and leaves no mode. -/
theorem event (h : DivertersStill s) {f : State → State} (ht : s.event f = .next t) (hf : StaysStill s (f s)) :
    DivertersStill t := StepKept.event h ht (hf.divertersStill h)

/-- Any event is taken in a running part alone (R165). -/
theorem eventRunning (h : DivertersStill s) {f : State → State} (ht : s.event f = .next t)
    (hf : RunningStill s → RunningStill (f s)) : DivertersStill t := by
  unfold State.event at ht; split at ht
  · exact Host.Outcome.next.inj ht ▸ h
  · exact Host.Outcome.next.inj ht ▸ (hf ⟨‹_›, h⟩).still

theorem dataRow (h : DivertersStill s) (v : Byte) (ht : s.dataRow v = .next t) : DivertersStill t :=
  h.eventRunning ht (fun k => ite_keeps k (k.lineData v))

theorem station (h : DivertersStill s) {f : State → State × Answer} (ht : s.station f = .next t)
    (hf : ∀ {u}, RunningStill u → RunningStill (f u).1) : DivertersStill t :=
  h.eventRunning ht (fun k => ite_keeps k (k.cancelReply.takeCommand hf))

theorem broadcasting (h : DivertersStill s) {f : State → State × Answer} (ht : s.broadcasting f = .next t)
    (hf : ∀ {u}, RunningStill u → RunningStill (f u).1) : DivertersStill t :=
  h.eventRunning ht (fun k => ite_keeps k (hf k.cancelReply.alike))

/-- Every row of the table keeps the diverters still. -/
theorem exec (h : DivertersStill s) (i : Instr) (ht : exec i s = .next t) : DivertersStill t := by
  have own := StaysStill.own s
  have start := StaysStill.refl s
  have commands := RunningStill.everyCommand
  unfold Machine.exec at ht
  cases i with
  | powerOnReset => exact Host.Outcome.next.inj ht ▸ held s _ _
  | pinReset =>
    simp only [execPinReset] at ht
    split at ht
    · exact Host.Outcome.next.inj ht ▸ h
    · exact Host.Outcome.next.inj ht ▸ held s _ _
  | releaseOfResetN pins =>
    simp only [execReleaseOfResetN] at ht
    split at ht
    · exact Host.Outcome.next.inj ht ▸ h
    · rename_i reset
      exact Host.Outcome.next.inj ht ▸ h.released (by rw [reset]; nofun) rfl rfl rfl
  | encoderPulse => exact h.event ht (own.pulse (own.settle start))
  | p8Capture => exact h.event ht (own.takeCapture start)
  | inductionLeadingEdge => exact h.event ht start.inductionLeads
  | inductionTrailingEdge => exact h.event ht start.inductionTrails
  | overlength => exact h.event ht (own.markOverlength start)
  | triggerSend => exact h.event ht (own.beginTrigger start)
  | readerCharacter c => exact h.event ht (start.readerReceives c)
  | holdLimitReached => exact h.event ht (own.takeReach .holdLimit start)
  | readWindowExpiry j => exact h.event ht (own.takeReach (.readWindow j) start)
  | fireDue l => exact h.event ht (own.takeReach (.fire l) start)
  | strokeEndCountReached l => exact h.event ht (own.takeReach (.strokeEnd l) start)
  | confirmWindowClose j => exact h.event ht (own.takeReach (.confirmClose j) start)
  | endWindowExpiry j => exact h.event ht (own.takeReach (.endWindow j) start)
  | stopTimeExpiry | triggerSent | readerGapTimeout | pullTimeElapsed | onTimeCap | recoveryTimeElapsed | testEnd
  | frameGapTimeout | replyStart | replyEnd => exact h.event ht (own.awaitTimer _ start)
  | softResetEffect => exact h.event ht (own.softResetComes start)
  | carrierPeriodStart => exact h.event ht (own.runOn _ start)
  | activePortionEnd => exact h.event ht (ite_keeps (own.runOn _ start) start)
  | laneEyeLeadingEdge l => exact h.event ht (start.laneEyeLeads l)
  | laneEyeTrailingEdge => exact Host.Outcome.next.inj ht ▸ h
  | endEyeLeadingEdge => exact h.event ht start.endEyeLeads
  | endEyeTrailingEdge => exact h.event ht start.same
  | guardOpening => exact h.eventRunning ht RunningStill.guardOpens
  | guardClosing => exact h.eventRunning ht RunningStill.guardCloses
  | addressCharacter v => exact h.eventRunning ht (fun k => ite_keeps k (k.lineMarked v))
  | lineError c => exact h.eventRunning ht (fun k => ite_keeps k (k.lineReceives c))
  | unknownCommand v | commandCharacter v | parameterCharacter v | badLength v | dataCharacterDuringWait v =>
    exact h.dataRow v ht
  | hold broadcast =>
    cases broadcast with
    | true => exact h.broadcasting ht commands.hold
    | false => exact h.station ht commands.hold
  | resume broadcast =>
    cases broadcast with
    | true => exact h.broadcasting ht commands.resume
    | false => exact h.station ht commands.resume
  | readStatus => exact h.station ht commands.readStatus
  | ackAttention w => exact h.station ht (commands.ackAttention w)
  | setMask w => exact h.station ht (commands.setMask w)
  | readReaderCounters => exact h.station ht commands.readReaderCounters
  | setMode m => exact h.station ht (commands.setMode m)
  | softReset => exact h.station ht commands.softReset
  | writeGeometry r => exact h.station ht (commands.writeGeometry r)
  | writeLanes a rs => exact h.station ht (commands.writeLanes a rs)
  | writeCarrier c => exact h.station ht (commands.writeCarrier c)
  | testStroke l d => exact h.station ht (commands.testStroke l d)
  | openLane l => exact h.station ht (commands.openLane l)
  | closeLane l => exact h.station ht (commands.closeLane l)
  | setCapacity l w => exact h.station ht (commands.setCapacity l w)
  | rackExchanged l => exact h.station ht (commands.rackExchanged l)
  | readLanes a n => exact h.station ht (commands.readLanes a n)
  | writePatterns a rs => exact h.station ht (commands.writePatterns a rs)
  | writeForms a rs => exact h.station ht (commands.writeForms a rs)
  | writeClasses a rs => exact h.station ht (commands.writeClasses a rs)
  | writeRoutes a rs => exact h.station ht (commands.writeRoutes a rs)
  | writeCatalogueSettings r => exact h.station ht (commands.writeSettings r)
  | readPatterns a n => exact h.station ht (commands.readPatterns a n)
  | readForms a n => exact h.station ht (commands.readForms a n)
  | readClasses a n => exact h.station ht (commands.readClasses a n)
  | readRoutes a n => exact h.station ht (commands.readRoutes a n)
  | readCatalogueSettings => exact h.station ht commands.readSettings
  | readTicket a b => exact h.station ht (commands.readTicket a b)
  | findTickets a b c => exact h.station ht (commands.findTickets a b c)
  | redirect a b c => exact h.station ht (commands.redirect a b c)
  | pull a b => exact h.station ht (commands.pull a b)
  | readTallies => exact h.station ht commands.readTallies
  | clearTallies => exact h.station ht commands.clearTallies
  | readEndMonitor => exact h.station ht commands.readEndMonitor

end Sys2Proof.Safety.DivertersStill

open Sys2Proof.Machine Sys2Proof.Safety

/-- Settles O56: strokes begin in RUN and DRAIN, which the guard must be closed for, and every way out of them ends those
still running; through a reset no row is taken but the release, which finds SETUP with nothing driven. -/
theorem stepKeepsDivertersStill : Obligations.StepKeepsDivertersStill := fun _ _ h ht =>
  step_keeps (P := DivertersStill) (fun u _ hu => (StaysStill.refl u).same.divertersStill hu)
    (fun u hu => (StaysStill.refl u).same.divertersStill hu)
    (fun u hu => ((StaysStill.refl u).elapse 1).divertersStill hu) (fun i _ _ hu ht => hu.exec i ht) h ht
end

section
/-! The ends of drive timers and the outputs (sections 8.2 to 8.6): the pull time, the on-time cap and the test end (R136,
R138, R141), and the levels of Table 8-2 (R133, R134). -/

namespace Sys2Proof.Machine

open Sys2Proof.Safety

variable {s : State} {l : Lane}

/-- Changes that make the same of a lane's drive. -/
theorem State.modDrive_congr {f g : Drive → Drive} (h : f (s.drive l) = g (s.drive l)) : s.modDrive l f = s.modDrive l g :=
  congrArg (fun v => { s with drives := v }) (tableMod_congr _ _ _ _ h)

/-! ### The pull time (R136) -/

theorem exec_pull (h : Running s) (pull : (s.drive l).state = .pull) (elapsed : (s.drive l).pullLeft = 0) :
    exec (.pullTimeElapsed l) s = .next (s.leavePull l) := by
  have due : s.timeLeft (.pull l) = some 0 := (if_pos pull).trans (congrArg some elapsed)
  exact (State.event_running h (fun s => s.awaitTimer (.pull l))).trans (congrArg _ (State.awaitTimer_due due))

/-! ### The on-time cap (R126, R138) -/

theorem exec_cap (h : Running s) (driven : Driven s l) (reached : (s.drive l).capTime ≤ (s.drive l).onTime) :
    exec (.onTimeCap l) s = .next (s.capStroke l) := by
  have due : s.timeLeft (.cap l) = some 0 :=
    (if_pos (driven_iff.mpr driven)).trans (congrArg some (Nat.sub_eq_zero_of_le reached))
  exact (State.event_running h (fun s => s.awaitTimer (.cap l))).trans (congrArg _ (State.awaitTimer_due due))

/-- The lane's STROKING tickets become CONFIRMING with a mark, wherever their destination is read. -/
theorem endStroking_eq (s : State) (l : Lane) (mark : Marks → Marks) : s.endStroking l mark =
    { s with tt := { s.tt with belt := s.tt.belt.map (fun t =>
      if t.state = .stroking ∧ t.dest = some (.lane l) then
        { t with state := .confirming, marks := mark t.marks } else t) } } := by
  simp only [State.endStroking, laneDest_iff]

/-- A drive whose stroke kind is known enters RECOVER. -/
theorem recoverLane_kind (h : (s.lane l).recoveryTime ≠ 0) {k : StrokeKind} (kind : (s.drive l).kind = k) :
    s.recoverLane l = s.modDrive l (fun _ => recovering (s.lane l).recoveryTime k) := by
  rw [recoverLane_eq h]
  exact State.modDrive_congr (congrArg (recovering _) kind)

theorem capStroke_fire (time : (s.lane l).recoveryTime ≠ 0) (kind : (s.drive l).kind = .fire) : s.capStroke l =
    ((s.endStroking l (fun m => { m with capped := true })).closeChannel l).modDrive l
      (fun _ => recovering (s.lane l).recoveryTime .fire) := by
  rw [State.capStroke, kind]
  exact recoverLane_kind (s := (s.endStroking l (fun m => { m with capped := true })).closeChannel l) time kind

theorem capStroke_test (time : (s.lane l).recoveryTime ≠ 0) {e : Nat} (kind : (s.drive l).kind = .test e) :
    s.capStroke l = s.modDrive l (fun _ => recovering (s.lane l).recoveryTime (.test e)) := by
  rw [State.capStroke, kind]
  exact recoverLane_kind time kind

/-! ### The test end (R141) -/

theorem exec_testEnd (h : Running s) (driven : Driven s l) {e : Nat} (kind : (s.drive l).kind = .test e)
    (reached : e ≤ (s.drive l).onTime) (notHeld : (s.drive l).endHeld = false) :
    exec (.testEnd l) s = .next (s.takeTestEnd l) := by
  have runs : (s.drive l).testEnd? = some e := by
    unfold Drive.testEnd?
    rw [if_pos ⟨driven_iff.mpr driven, notHeld⟩, kind]
  have due : s.timeLeft (.testEnd l) = some 0 := by
    rw [State.timeLeft, runs]
    exact congrArg some (Nat.sub_eq_zero_of_le reached)
  exact (State.event_running h (fun s => s.awaitTimer (.testEnd l))).trans (congrArg _ (State.awaitTimer_due due))

theorem takeTestEnd_hold (hold : (s.drive l).state = .hold) : s.takeTestEnd l = s.recoverLane l := by
  rw [State.takeTestEnd, hold]

theorem takeTestEnd_pull (pull : (s.drive l).state = .pull) :
    s.takeTestEnd l = s.modDrive l (fun d => { d with endHeld := true }) := by
  rw [State.takeTestEnd, pull]

/-! ### Outputs (R133, R134) -/

theorem outputActive_hold (hold : (s.drive l).state = .hold) :
    s.outputActive l = decide (s.carrier.phase < activePortion (s.drive l).duty s.carrier.select) := by
  rw [State.outputActive, hold]

/-- A duty of 64 is active through the period. -/
theorem activePortion_full (select : Nat) : activePortion 64 select = carrierPeriod select := by
  rw [activePortion, Nat.mul_div_cancel_left _ (by decide)]

theorem drvLevel_activeHigh (h : Running s) (polarity : (s.lane l).polarity = .activeHigh) :
    s.drvLevel l = s.outputActive l := by
  rw [State.drvLevel, h, polarity]

theorem drvLevel_activeLow (h : Running s) (polarity : (s.lane l).polarity = .activeLow) :
    s.drvLevel l = !s.outputActive l := by
  rw [State.drvLevel, h, polarity]

end Sys2Proof.Machine

open Sys2Proof.Machine Sys2Proof.Safety

/-- Settles O26: the pull timer stands at 0 already, so HOLD changes the state and the duty alone. -/
theorem pullTimeElapses : Obligations.PullTimeElapses := by
  intro s l running pull elapsed
  rw [exec_pull running pull elapsed]
  refine ⟨fun notHeld => congrArg _ ?_, fun held time => congrArg _ ?_⟩
  · have entered : s.leavePull l =
        s.modDrive l (fun d => { d with state := .hold, pullLeft := 0, duty := (s.lane l).holdDuty }) :=
      if_neg (by rw [notHeld]; nofun)
    rw [entered]
    exact State.modDrive_congr (by rw [← elapsed])
  · rw [← recoverLane_eq time]
    exact if_pos held

/-- Settles O27: the cap of a fire stroke ends the tickets' strokes and the channel first, a test stroke has neither; then
the drive enters RECOVER, as it does at the test end in HOLD. -/
theorem capAndTestEndEndStrokes : Obligations.CapAndTestEndEndStrokes := by
  intro s l running
  refine ⟨fun driven reached time => ?_, fun e kind reached notHeld => ⟨fun hold time => ?_, fun pull => ?_⟩⟩
  · rw [exec_cap running driven reached]
    refine ⟨fun kind => ?_, fun e kind => ?_⟩
    · rw [capStroke_fire time kind, endStroking_eq]
      rfl
    · rw [capStroke_test time kind]
  · rw [exec_testEnd running (.inr hold) kind reached notHeld, takeTestEnd_hold hold, recoverLane_kind time kind]
  · rw [exec_testEnd running (.inl pull) kind reached notHeld, takeTestEnd_pull pull]

/-- Settles O30: in HOLD the duty decides, from no clock of the period at 0 to every clock at 64. -/
theorem driveOutputs : Obligations.DriveOutputs := by
  intro s l running
  refine ⟨fun rests => ?_, fun pull => ?_, fun hold duty => ?_, fun hold duty phase => ?_,
    drvLevel_activeHigh running, drvLevel_activeLow running⟩
  · obtain idle | recover := rests
    · rw [State.outputActive, idle]
    · rw [State.outputActive, recover]
  · rw [State.outputActive, pull]
  · rw [outputActive_hold hold, duty, activePortion, Nat.zero_mul]
    rfl
  · rw [outputActive_hold hold, duty, activePortion_full]
    exact decide_eq_true phase
end

section
/-! The carrier (R131, R132, R134), the test stroke (R140) and the answer to SOFT RESET (R166). -/

namespace Sys2Proof.Machine

open Sys2Proof.Safety

variable {s : State} {l : Lane} {n : Nat}

/-! ### The passing of clocks -/

/-- The clocks that pass reach each drive, and no ticket, lane, channel, eye or mode. -/
theorem elapse_frame (h : Running s) (n : Nat) : (s.elapse n).tt = s.tt ∧ (s.elapse n).lanes = s.lanes ∧
    (s.elapse n).channels = s.channels ∧ (s.elapse n).ind = s.ind ∧ (s.elapse n).em = s.em ∧
    (s.elapse n).mc = s.mc := by
  unfold State.elapse
  rw [h]
  exact State.forLanes_keeps (P := fun t => t.tt = s.tt ∧ t.lanes = s.lanes ∧ t.channels = s.channels ∧ t.ind = s.ind ∧
    t.em = s.em ∧ t.mc = s.mc) _ ⟨rfl, rfl, rfl, rfl, rfl, rfl⟩ (fun _ _ k => k)

theorem drive_elapse (h : Running s) (n : Nat) (l : Lane) : (s.elapse n).drive l =
    (s.drive l).elapse ((s.xtal + n) / 16) (s.carrier.advance n).2 (s.lane l).holdDuty := by
  unfold State.elapse
  rw [h]
  dsimp only
  refine (Prod.mk.inj (State.forLanes_read (fun u : State => (u.lanes, u.drive l)) _ l (s.lanes, _)
    (fun u hu => ?_) (fun u m hm => ?_))).2
  · obtain ⟨lanes, drive⟩ := Prod.mk.inj hu
    rw [State.drive_modDrive_self, drive]
    exact Prod.ext lanes (by rw [State.lane, lanes]; rfl)
  · rw [State.drive_modDrive, if_neg (Ne.symm hm)]
    rfl

theorem Drive.state_elapse (d : Drive) (us : Nat) (fresh : Bool) (duty : Nat) : (d.elapse us fresh duty).state = d.state := by
  cases state : d.state <;> simp [Drive.elapse, state]

/-- The start of a period is read by a drive in HOLD alone (R134). -/
theorem Drive.duty_elapse {d : Drive} (hold : d.state = .hold) (us : Nat) (fresh : Bool) (duty : Nat) :
    (d.elapse us fresh duty).duty = if fresh then duty else d.duty := by
  rw [Drive.elapse, hold]

theorem Carrier.fresh_within {c : Carrier} (h : c.phase + n < carrierPeriod c.select) : (c.advance n).2 = false := by
  simp [Carrier.advance, h]

theorem Carrier.fresh_end {c : Carrier} (h : c.phase + n = carrierPeriod c.select) : (c.advance n).2 = true := by
  simp [Carrier.advance, h]

/-! ### Running on to the end of a period or of an active portion -/

/-- The part runs on to a clock of the present period, or to its end, and the carrier with it (log 5). -/
theorem runOn_apart (h : Running s) (hn : n ≠ 0) (within : s.carrier.phase + n ≤ carrierPeriod s.carrier.select) :
    (s.runOn n).carrier = (s.carrier.advance n).1 ∧ (s.runOn n).cat = s.cat ∧ (s.runOn n).geo = s.geo ∧
      (s.runOn n).pending = s.pending := by
  obtain ⟨carrier, cat, geo, -, -, pending⟩ := State.passClocks_apart s.rounds n s h within
  exact ⟨carrier.trans (if_neg hn), cat, geo, pending⟩

/-- Where no own event falls due on the way, the clocks alone pass. -/
theorem runOn_quiet (hn : n ≠ 0) (quiet : QuietFor s n) : s.runOn n = s.elapse n := by
  obtain ⟨m, rfl⟩ := Nat.exists_eq_succ_of_ne_zero hn
  exact State.runOn_quiet quiet

theorem exec_carrierPeriodStart (h : Running s) : exec .carrierPeriodStart s =
    .next (s.runOn (carrierPeriod s.carrier.select - s.carrier.phase)) := State.event_running h _

theorem exec_activePortionEnd (h : Running s) (hold : (s.drive l).state = .hold)
    (before : s.carrier.phase < activePortion (s.drive l).duty s.carrier.select)
    (ends : activePortion (s.drive l).duty s.carrier.select < carrierPeriod s.carrier.select) :
    exec (.activePortionEnd l) s =
      .next (s.runOn (activePortion (s.drive l).duty s.carrier.select - s.carrier.phase)) :=
  (State.event_running h (fun s => s.onActivePortionEnd l)).trans (congrArg _ (if_pos ⟨hold, before, ends⟩))

/-- A period start brings the pending select into force at phase 0 (R131). -/
theorem carrier_periodStart (h : Running s) (phase : s.carrier.phase < carrierPeriod s.carrier.select) :
    (s.runOn (carrierPeriod s.carrier.select - s.carrier.phase)).carrier =
      { select := s.carrier.pending.getD s.carrier.select, pending := none, phase := 0 } := by
  obtain ⟨carrier, -⟩ := runOn_apart h (Nat.sub_ne_zero_of_lt phase) (by omega)
  rw [carrier, Carrier.advance_end (by omega)]

/-! ### The command that sets the carrier (R131, R132) -/

section WriteCarrier

variable {k : Byte} (h : Listening s)

include h

theorem writeCarrier_notInMode (hm : s.mode ≠ .setup) :
    exec (.writeCarrier k) s = .next (answered s .notInMode []) :=
  State.station_answered h (if_pos hm) rfl

theorem writeCarrier_badParam (hm : s.mode = .setup) (hk : 7 < k.toNat) :
    exec (.writeCarrier k) s = .next (answered s .badParam []) :=
  State.station_answered h ((if_neg (not_not.mpr hm)).trans (if_pos hk)) rfl

theorem writeCarrier_taken (hm : s.mode = .setup) (hk : k.toNat ≤ 7) :
    exec (.writeCarrier k) s = .next (answered { s with carrier := { s.carrier with pending := some k.toNat } } .ok
      [byteOf s.carrier.select, k]) :=
  State.station_answered h ((if_neg (not_not.mpr hm)).trans (if_neg (Nat.not_lt.mpr hk))) rfl

/-- The value taken is in force from the next period start. -/
theorem writeCarrier_comes (hm : s.mode = .setup) (hk : k.toNat ≤ 7)
    (phase : s.carrier.phase < carrierPeriod s.carrier.select) :
    ∃ t, inTurn [.writeCarrier k, .carrierPeriodStart] s = .next t ∧
      t.carrier = { select := k.toNat, pending := none, phase := 0 } := by
  have running : Running (answered { s with carrier := { s.carrier with pending := some k.toNat } } .ok
      [byteOf s.carrier.select, k]) := h.running
  refine ⟨_, ?_, carrier_periodStart running phase⟩
  rw [inTurn, writeCarrier_taken h hm hk]
  dsimp only
  rw [inTurn, exec_carrierPeriodStart running]
  rfl

end WriteCarrier

/-! ### The test stroke (R140) -/

/-- The drive of a stroke begun is the record of its beginning. -/
theorem startStroke_eq (s : State) (l : Lane) (k : StrokeKind) :
    s.startStroke l k = s.modDrive l (fun _ => begun (s.lane l) k) := rfl

/-- A duration of 0 is taken as 1 and marked CLAMPED; every other is taken as it is. -/
theorem testDuration (duration : Byte) : byteOf (max 1 duration.toNat) = (if duration = 0 then 1 else duration) ∧
    clampStatus (max 1 duration.toNat != duration.toNat) = if duration = 0 then .clamped else .ok := by
  by_cases zero : duration = 0
  · subst zero
    exact ⟨rfl, rfl⟩
  · have least : max 1 duration.toNat = duration.toNat :=
      max_eq_right (Nat.pos_of_ne_zero fun e => zero (BitVec.eq_of_toNat_eq e))
    rw [least, byteOf_toNat, if_neg zero, if_neg zero, bne_self_eq_false]
    exact ⟨rfl, rfl⟩

section TestStroke

variable {lane duration : Byte} (h : Listening s)

include h

theorem testStroke_notInMode (hm : s.mode ≠ .setup) :
    exec (.testStroke lane duration) s = .next (answered s .notInMode []) :=
  State.station_answered h (if_pos hm) rfl

theorem testStroke_badParam (hm : s.mode = .setup) (hl : lane.toNat = 0 ∨ 12 < lane.toNat) :
    exec (.testStroke lane duration) s = .next (answered s .badParam []) := by
  refine State.station_answered h ((if_neg (not_not.mpr hm)).trans ?_) rfl
  rw [laneParam?_none hl]
  rfl

/-- In SETUP and for a lane 1 to 12, the guard and the drive decide. -/
theorem testStroke_lane (hm : s.mode = .setup) (hl : l.val + 1 = lane.toNat) {t : State} {st : Status} {data : List Byte}
    (decides : (if s.mc.guard = .opened then s.frameDone.refuse .state
      else if (s.drive l).state ≠ .idle then s.frameDone.refuse .busy
      else (s.frameDone.startStroke l (.test (max 1 duration.toNat * 10000)),
        { status := clampStatus (max 1 duration.toNat != duration.toNat),
          data := [lane, byteOf (max 1 duration.toNat)] })) = (t.frameDone, { status := st, data := data }))
    (address : t.sli.address = s.sli.address) :
    exec (.testStroke lane duration) s = .next (answered t st data) := by
  refine State.station_answered h ((if_neg (not_not.mpr hm)).trans ?_) address
  rw [laneParam?_eq hl]
  exact decides

theorem testStroke_guardOpen (hm : s.mode = .setup) (hl : l.val + 1 = lane.toNat) (hg : s.mc.guard = .opened) :
    exec (.testStroke lane duration) s = .next (answered s .state []) :=
  testStroke_lane h hm hl (if_pos hg) rfl

theorem testStroke_busy (hm : s.mode = .setup) (hl : l.val + 1 = lane.toNat) (hg : s.mc.guard = .closed)
    (hd : (s.drive l).state ≠ .idle) : exec (.testStroke lane duration) s = .next (answered s .busy []) :=
  testStroke_lane h hm hl ((if_neg (by rw [hg]; decide)).trans (if_pos hd)) rfl

theorem testStroke_begins (hm : s.mode = .setup) (hl : l.val + 1 = lane.toNat) (hg : s.mc.guard = .closed)
    (hd : (s.drive l).state = .idle) : exec (.testStroke lane duration) s =
      .next (answered (s.modDrive l (fun _ => begun (s.lane l) (.test (max 1 duration.toNat * 10000))))
        (if duration = 0 then .clamped else .ok) [lane, if duration = 0 then 1 else duration]) := by
  refine testStroke_lane h hm hl ((if_neg (by rw [hg]; decide)).trans ((if_neg (not_not.mpr hd)).trans ?_)) rfl
  rw [startStroke_eq, (testDuration duration).1, (testDuration duration).2]
  rfl

end TestStroke

/-! ### The answer to SOFT RESET (R166) -/

theorem softReset_answered (h : Listening s) : exec .softReset s = .next { s with sli := { s.sli with
    frame := .ignoring, broadcast := false, gapTimer := 0
    reply := some { status := .ok, data := [], softReset := true }, quietTimer := 0 } } := by
  show s.station cmdSoftReset = _
  rw [State.station_listening h, State.takeCommand, cmdSoftReset, State.replyDue,
    if_neg (show ¬ s.frameDone.sli.address = 0 from h.addressed)]
  rfl

end Sys2Proof.Machine

open Sys2Proof.Machine Sys2Proof.Safety

/-- Settles O49, test by test: each refusal and each command taken is a lemma above. -/
theorem carrierTestStrokeAndSoftReset : Obligations.CarrierTestStrokeAndSoftReset := by
  intro s h
  refine ⟨softReset_answered h, fun k => ⟨writeCarrier_notInMode h, writeCarrier_badParam h, fun hm hk =>
    ⟨writeCarrier_taken h hm hk, writeCarrier_comes h hm hk⟩⟩, fun lane duration => ⟨testStroke_notInMode h,
    testStroke_badParam h, fun l hm hl => ⟨testStroke_guardOpen h hm hl, testStroke_busy h hm hl,
    testStroke_begins h hm hl⟩⟩⟩

/-- Settles O29: the carrier goes where the clocks alone bring it, whatever falls due on the way; where no own event does,
time alone passes, which changes a drive only in its timers and its duty. -/
theorem carrierPeriods : Obligations.CarrierPeriods := by
  intro s running phase
  have phase' : s.carrier.phase < carrierPeriod s.carrier.select := phase
  refine ⟨?_, ?_⟩
  · have some' := Nat.sub_ne_zero_of_lt phase'
    have ends : s.carrier.phase + (carrierPeriod s.carrier.select - s.carrier.phase) = carrierPeriod s.carrier.select := by
      omega
    obtain ⟨-, cat, geo, pending⟩ := runOn_apart running some' ends.le
    refine ⟨_, exec_carrierPeriodStart running, carrier_periodStart running phase', cat, geo, pending, fun quiet => ?_⟩
    rw [runOn_quiet some' quiet]
    refine ⟨fun l => ?_, elapse_frame running _⟩
    rw [drive_elapse running, Drive.state_elapse, Carrier.fresh_end ends]
    exact ⟨rfl, fun hold => Drive.duty_elapse hold _ _ _⟩
  · intro l portion portion_eq hold before within
    obtain rfl : portion = activePortion (s.drive l).duty s.carrier.select := portion_eq
    have some' := Nat.sub_ne_zero_of_lt before
    have comes : s.carrier.phase + (activePortion (s.drive l).duty s.carrier.select - s.carrier.phase) =
        activePortion (s.drive l).duty s.carrier.select := Nat.add_sub_of_le before.le
    have inside : s.carrier.phase + (activePortion (s.drive l).duty s.carrier.select - s.carrier.phase) <
        carrierPeriod s.carrier.select := comes.trans_lt within
    obtain ⟨carrier, cat, geo, pending⟩ := runOn_apart running some' inside.le
    rw [Carrier.advance_within inside, comes] at carrier
    refine ⟨(outputActive_hold hold).trans (decide_eq_true before), _, exec_activePortionEnd running hold before within,
      carrier, cat, geo, pending, fun quiet => ⟨?_, ?_⟩⟩
    · rw [runOn_quiet some' quiet] at carrier ⊢
      have drive := drive_elapse running (activePortion (s.drive l).duty s.carrier.select - s.carrier.phase) l
      rw [Carrier.fresh_within inside] at drive
      rw [outputActive_hold (by rw [drive, Drive.state_elapse, hold]), carrier, drive, Drive.duty_elapse hold]
      exact decide_eq_false (Nat.lt_irrefl _)
    · rw [runOn_quiet some' quiet]
      exact elapse_frame running _

end

section
/-! The end of the belt (chapter 9): what retires a ticket in end accounting, at a sighting inside its window (R147) or at
the window's end unseen (R149, R150), and an end stray (R148). -/

namespace Sys2Proof.Machine

open Sys2Proof.Safety

variable {s u : State} {t : Ticket} {w : Count × Count} {l : Lane}

/-! ### The retirement of a ticket in end accounting (R28, R145, R158) -/

theorem inEnd_iff : t.inEnd = true ↔ t.state = .runningOff ∨ t.state = .doubt := by
  unfold Ticket.inEnd; rw [Bool.or_eq_true, beq_iff_eq, beq_iff_eq]

/-- A ticket in end accounting holds no commitment at a lane (R27). -/
theorem commitment_of_inEnd (ended : t.inEnd = true) : t.commitment = none := by
  unfold Ticket.commitment
  obtain e | e := inEnd_iff.mp ended <;> rw [e]

/-- Its retirement leaves every lane as it is, and touches the ticket table alone. -/
theorem retire_inEnd {k : Slot} (o : TicketOutcome) (ended : t.inEnd = true) (found : s.ticketAt? k = some t)
    (unheld : Unheld s t) (goesOn : DrainGoesOn s t) : s.retire k o = { s with tt := { s.tt with
      belt := without s t.slot
      tallies := tableMod s.tt.tallies (tallyIndex t.outlet o) (fun n => min (n + 1) 65535) } } := by
  rw [State.retire_unheld o found unheld goesOn, releaseOf_eq, lanes_releaseOf_none (commitment_of_inEnd ended)]
  rfl

/-- The retirement of the last live ticket ends the drain in SETUP, the lanes, the end eye and the line as they were. -/
theorem retire_inEnd_last (o : TicketOutcome) (ended : t.inEnd = true) (drain : s.mode = .drain)
    (belt : s.tt.belt = [t]) (unheld : Unheld s t) : DrainEnded s (s.retire t.slot o) ∧
      (s.retire t.slot o).tt = lastRetired s t o ∧ (s.retire t.slot o).lanes = s.lanes ∧
      (s.retire t.slot o).em = s.em ∧ (s.retire t.slot o).sli = s.sli := by
  have drained := drainEnded_enterSetup (p := s) (tt := lastRetired s t o) (ls := s.lanes) (i := s.sli) (j := s.sli)
    (fun _ => rfl) rfl
  obtain ⟨d, c, entered⟩ := enterSetup_eq { s with tt := lastRetired s t o, lanes := s.lanes }
  rw [entered] at drained
  rw [retire_last belt drain unheld, lanes_releaseOf_none (commitment_of_inEnd ended), entered]
  exact ⟨drained, rfl, rfl, rfl, rfl⟩

/-! ### Sightings (R143, R146 to R148) -/

/-- The end eye blocked, as a leading edge leaves it. -/
def State.endBlocked (s : State) : State := { s with em := { s.em with eye := .blocked } }

theorem exec_endEyeLeads (h : Attending s) (clear : s.em.eye = .clear) :
    exec .endEyeLeadingEdge s = .next s.endBlocked.sightEnd := by
  have sighted : s.endEyeLeads = s.endBlocked.sightEnd := by
    unfold State.endEyeLeads; rw [clear]; dsimp only; split
    · exact absurd ‹_› h.2
    all_goals rfl
  exact (State.event_running h.1 State.endEyeLeads).trans (congrArg _ sighted)

/-- In SETUP the eye state alone changes, whether or not it was blocked already. -/
theorem exec_endEyeLeads_setup (h : Running s) (setup : s.mode = .setup) :
    exec .endEyeLeadingEdge s = .next s.endBlocked := by
  have blocked : s.endEyeLeads = s.endBlocked := by
    unfold State.endEyeLeads; split
    · rename_i already; unfold State.endBlocked; rw [← already]
    · dsimp only; split
      · rfl
      all_goals rename_i other; exact nomatch setup.symm.trans other
  exact (State.event_running h State.endEyeLeads).trans (congrArg _ blocked)

/-- A window contains a count that neither bound leaves out. -/
theorem endContains_of_bounds {e : Count} (ended : t.inEnd = true) (bounds : t.endBounds = some w)
    (lower : 0 ≤ signedDiff w.1 e) (upper : 0 ≤ signedDiff e w.2) : t.endContains e = true := by
  unfold Ticket.endContains windowContains
  rw [ended, bounds]
  simp [lower, upper]

/-- The oldest ticket whose window contains the count is the one retired (R147). -/
theorem sightEnd_oldest {pre post : List Ticket} (belt : s.tt.belt = pre ++ t :: post)
    (older : ∀ v ∈ pre, v.endContains s.bcu.count = false) (contains : t.endContains s.bcu.count = true) :
    s.sightEnd = s.retire t.slot (if t.state = .doubt then .missort else .runOff) := by
  have found : s.tt.belt.find? (fun v => v.endContains s.now) = some t :=
    List.find?_eq_some_iff_append.mpr ⟨contains, pre, post, belt, fun v hv => by rw [State.now, older v hv]; rfl⟩
  unfold State.sightEnd; rw [found]

/-- In no window, a sighting is an end stray (R148). -/
theorem sightEnd_stray (outside : ∀ v ∈ s.tt.belt, v.endContains s.bcu.count = false) :
    s.sightEnd = ({ s with em := { s.em with strays := min (s.em.strays + 1) 65535 } } : State).raise .endStray := by
  have inNone : s.tt.belt.find? (fun v => v.endContains s.now) = none :=
    List.find?_eq_none.mpr fun v hv => by rw [State.now, outside v hv]; exact Bool.false_ne_true
  unfold State.sightEnd; rw [inNone]; rfl

/-- With slots distinct, the belt list without a ticket is what stands before it and behind it. -/
theorem without_append {pre post : List Ticket} (hd : SlotsDistinct s) (belt : s.tt.belt = pre ++ t :: post) :
    without s t.slot = pre ++ post := by
  unfold SlotsDistinct at hd
  rw [belt, List.map_append, List.map_cons, List.nodup_middle, List.nodup_cons, ← List.map_append] at hd
  have others : ∀ v ∈ pre ++ post, v.slot ≠ t.slot := fun v hv e => hd.1 (e ▸ List.mem_map_of_mem hv)
  have kept : (pre ++ post).filter (fun v => decide (v.slot ≠ t.slot)) = pre ++ post :=
    List.filter_eq_self.mpr fun v hv => decide_eq_true (others v hv)
  rw [List.filter_append] at kept
  unfold without
  rw [belt, List.filter_append, List.filter_cons_of_neg (by simp), kept]

/-- A drain ended from a state is ended from any other that differs in the end eye alone. -/
theorem drainEnded_of_endBlocked (h : DrainEnded s.endBlocked u) : DrainEnded s u where
  mode := h.mode
  belt := h.belt
  strokesEnd := h.strokesEnd
  othersStay := h.othersStay
  restStays := h.restStays

/-! ### End windows past (R149, R150) -/

theorem exec_endWindowExpiry {k : Slot} (h : Running s) (ended : t.inEnd = true) (found : s.ticketAt? k = some t)
    (bounds : t.endBounds = some w) (past : isReached s.bcu.count w.2 = true) :
    exec (.endWindowExpiry k) s = .next (s.expireEnd k) := by
  have reached : s.endReached k = true := by
    unfold State.endReached; rw [found]; dsimp only; rw [ended, bounds]; exact past
  exact (State.event_running h (fun s => s.onEndWindow k)).trans (congrArg _ (if_pos reached))

theorem expireEnd_runningOff {k : Slot} (found : s.ticketAt? k = some t) (state : t.state = .runningOff) :
    s.expireEnd k = s.retire k .lost := by
  unfold State.expireEnd; rw [found]; dsimp only; rw [state]

/-- A DOUBT ticket is presumed in its lane's rack, which it does not fill (R103, R150). -/
theorem expireEnd_doubt {k : Slot} (found : s.ticketAt? k = some t) (state : t.state = .doubt)
    (dest : t.dest = some (.lane l)) (lanes : (s.retire k .sortedUnseen).lanes = s.lanes)
    (room : (s.lane l).state ≠ .opened ∨ (s.lane l).fill + 1 < (s.lane l).capacity) (few : (s.lane l).fill < 999) :
    s.expireEnd k = { s.retire k .sortedUnseen with
      lanes := tableMod s.lanes l (fun r => { r with fill := r.fill + 1 }) } := by
  have lane : (s.retire k .sortedUnseen).lane l = s.lane l := congrArg (Vector.get · l) lanes
  have presumed : s.expireEnd k = (s.retire k .sortedUnseen).addFill l := by
    unfold State.expireEnd; rw [found]; dsimp only; rw [state, laneDest_iff.mpr dest]
  rw [presumed, addFill_room (by rwa [lane]) (by rwa [lane]), State.modLane, lanes]

end Sys2Proof.Machine

open Sys2Proof.Machine Sys2Proof.Safety

/-- Settles O34: past the eye's own change, a sighting is the retirement of the oldest ticket it falls to, or a stray. -/
theorem endSightings : Obligations.EndSightings := by
  intro s
  refine ⟨fun pre post t w attending clear hd belt older bounds lower upper state unheld goesOn => ?_,
    fun t w running drain clear belt bounds lower upper state unheld => ?_, fun attending clear outside => ?_,
    fun running => State.event_running running (fun s => { s with em := { s.em with eye := .clear } }),
    exec_endEyeLeads_setup⟩
  · have ended := inEnd_iff.mpr state
    have contains := endContains_of_bounds ended bounds lower upper
    have found : s.ticketAt? t.slot = some t :=
      State.ticketAt?_of_mem hd (belt ▸ List.mem_append_right pre List.mem_cons_self)
    rw [exec_endEyeLeads attending clear, sightEnd_oldest (s := s.endBlocked) belt older contains,
      retire_inEnd (s := s.endBlocked) _ ended found unheld goesOn, without_append (s := s.endBlocked) hd belt]
    rfl
  · have ended := inEnd_iff.mpr state
    have contains := endContains_of_bounds ended bounds lower upper
    have attending : Attending s := ⟨running, by rw [drain]; nofun⟩
    obtain ⟨drained, tt, lanes, em, sli⟩ := retire_inEnd_last (s := s.endBlocked)
      (if t.state = .doubt then .missort else .runOff) ended drain belt unheld
    rw [exec_endEyeLeads attending clear,
      sightEnd_oldest (s := s.endBlocked) (pre := []) belt (List.forall_mem_nil _) contains]
    exact ⟨_, rfl, drainEnded_of_endBlocked drained, em, tt, lanes, sli⟩
  · rw [exec_endEyeLeads attending clear, sightEnd_stray (s := s.endBlocked) outside]
    rfl

/-- Settles O35: the expiry is the retirement, and for a DOUBT ticket one more ware in its lane's rack. -/
theorem endWindowExpires : Obligations.EndWindowExpires := by
  intro s k t w running found bounds past unheld
  obtain ⟨-, rfl⟩ := State.ticketAt?_some found
  have expires (ended : t.inEnd = true) := exec_endWindowExpiry running ended found bounds past
  refine ⟨fun state goesOn => ?_, fun l state dest goesOn room few => ?_, fun state drain belt => ?_,
    fun l state dest drain belt room few => ?_⟩
  · have ended := inEnd_iff.mpr (.inl state)
    rw [expires ended, expireEnd_runningOff found state, retire_inEnd .lost ended found unheld goesOn]
  · have ended := inEnd_iff.mpr (.inr state)
    have retired := retire_inEnd .sortedUnseen ended found unheld goesOn
    rw [expires ended, expireEnd_doubt found state dest (by rw [retired]) room few, retired]
  · have ended := inEnd_iff.mpr (.inl state)
    obtain ⟨drained, tt, lanes, em, sli⟩ := retire_inEnd_last .lost ended drain belt unheld
    rw [expires ended, expireEnd_runningOff found state]
    exact ⟨_, rfl, drained, tt, lanes, em, sli⟩
  · have ended := inEnd_iff.mpr (.inr state)
    obtain ⟨drained, tt, lanes, em, sli⟩ := retire_inEnd_last .sortedUnseen ended drain belt unheld
    rw [expires ended, expireEnd_doubt found state dest lanes room few]
    exact ⟨_, rfl, drainEnded_lanes drained _, tt, rfl, em, sli⟩

end

section
/-! Section 10.6: the beginning and the end of a power-on and of a pin reset (R165), what is taken through one, and the
invariants of the state after it. -/

namespace Sys2Proof.Machine

open Sys2Proof.Safety

variable {s : State} {cause : ResetCause}

/-! ### Through a reset (R165) -/

/-- A pin reset that begins within a reset is part of it. -/
theorem exec_pinReset_inReset (reset : s.inReset = some cause) : exec .pinReset s = .next s := by
  show execPinReset s = _
  rw [execPinReset, reset]

theorem dataRow_inReset (reset : s.inReset = some cause) (v : Byte) : s.dataRow v = .next s :=
  State.event_inReset reset _

theorem station_inReset (reset : s.inReset = some cause) (f : State → State × Answer) : s.station f = .next s :=
  State.event_inReset reset _

/-- HOLD and RESUME, sent by broadcast or to the station. -/
theorem broadcastRow_inReset (reset : s.inReset = some cause) (broadcast : Bool) (f : State → State × Answer) :
    (if broadcast then s.broadcasting f else s.station f) = .next s := by
  split
  · exact State.event_inReset reset _
  · exact station_inReset reset f

theorem exec_pinReset (running : Running s) : exec .pinReset s = .next (s.held .pin s.xtal) := by
  show execPinReset s = _
  rw [execPinReset, running]

theorem exec_release (reset : s.inReset = some cause) (pins : Pins) : exec (.releaseOfResetN pins) s = .next { s with
    inReset := none
    ind := { s.ind with eye := pins.inductionEye }
    em := { s.em with eye := pins.endEye }
    mc := { s.mc with guard := pins.guard, cause := cause }
    sli := { s.sli with address := pins.address, baud := pins.baud }
    carrier := { s.carrier with phase := 0 } } := by
  show execReleaseOfResetN pins s = _
  rw [execReleaseOfResetN, reset]

theorem drvLevel_inReset (reset : s.inReset = some cause) (l : Lane) : s.drvLevel l = false := by
  rw [State.drvLevel, reset]

theorem attnLevel_inReset (reset : s.inReset = some cause) : s.attnLevel = true := by
  rw [State.attnLevel, State.attnActive, reset]
  rfl

/-! ### The state after reset -/

theorem lane_reset (l : Lane) : State.reset.lane l = LaneRecord.reset := get_replicate _ l

theorem drive_reset (l : Lane) : State.reset.drive l = Drive.reset := get_replicate _ l

theorem not_driven_reset (l : Lane) : ¬ Driven State.reset l := by
  rw [← driven_iff, drive_reset]
  decide

theorem divertersStill_reset : DivertersStill State.reset :=
  (RunningStill.of_undriven (s := State.reset) rfl (.inl rfl) not_driven_reset).still

theorem commitmentsKept_reset : CommitmentsKept State.reset :=
  ⟨List.nodup_nil, fun l => congrArg LaneRecord.committed (lane_reset l)⟩

/-- A CLOSED lane with nothing in its rack asks for nothing. -/
theorem lanesSound_reset : LanesSound State.reset := by
  intro l
  rw [lane_reset]
  exact ⟨fun notClosed => absurd rfl notClosed, nofun, nofun, Nat.zero_le _⟩

theorem queuesOnlyWhileOpen_reset : QueuesOnlyWhileOpen State.reset := ⟨List.nodup_nil, fun _ => rfl, fun _ _ => rfl⟩

theorem underEyeLive_reset : UnderEyeLive State.reset := nofun

end Sys2Proof.Machine

open Sys2Proof.Machine Sys2Proof.Safety

/-- Settles O4: but for the two rows of the resets each row is an event, a character or a frame of a running part, or,
for a lane eye's trailing edge, nothing at all. -/
theorem nothingTakenInReset : Obligations.NothingTakenInReset := by
  intro c s cause reset notPower notRelease
  unfold exec
  cases c with
  | powerOnReset => exact absurd rfl notPower
  | releaseOfResetN pins => exact absurd rfl (notRelease pins)
  | pinReset => exact exec_pinReset_inReset reset
  | laneEyeTrailingEdge => rfl
  | encoderPulse | p8Capture | stopTimeExpiry | inductionLeadingEdge | inductionTrailingEdge | overlength
  | holdLimitReached | triggerSend | triggerSent | readerCharacter | readerGapTimeout | readWindowExpiry | fireDue
  | strokeEndCountReached | pullTimeElapsed | onTimeCap | recoveryTimeElapsed | testEnd | carrierPeriodStart
  | activePortionEnd | laneEyeLeadingEdge | confirmWindowClose | endEyeLeadingEdge | endEyeTrailingEdge
  | endWindowExpiry | guardOpening | guardClosing | addressCharacter | lineError | frameGapTimeout | replyStart
  | replyEnd | softResetEffect =>
    dsimp only
    exact State.event_inReset reset _
  | unknownCommand v | commandCharacter v | parameterCharacter v | badLength v | dataCharacterDuringWait v =>
    exact dataRow_inReset reset v
  | hold broadcast => exact broadcastRow_inReset reset broadcast cmdHold
  | resume broadcast => exact broadcastRow_inReset reset broadcast cmdResume
  | _ =>
    dsimp only
    exact station_inReset reset _

/-- Settles O3: the state a reset begins with is `State.held`, and the pins follow from the reset in progress. -/
theorem resetsBegin : Obligations.ResetsBegin := fun _ =>
  ⟨rfl, exec_pinReset, fun _ reset =>
    ⟨exec_pinReset_inReset reset, drvLevel_inReset reset, attnLevel_inReset reset⟩⟩

/-- Settles O5: the release writes what it samples over the state that the reset has held. -/
theorem releaseSamplesPins : Obligations.ReleaseSamplesPins :=
  ⟨fun pins _ _ reset => exec_release reset pins, fun _ _ => ⟨_, rfl, rfl, rfl, rfl, get_replicate _, get_replicate _,
    get_replicate _, fun l => ⟨congrArg LaneRecord.state (lane_reset l), congrArg LaneRecord.distance (lane_reset l)⟩⟩⟩

/-- Settles O55: nothing is driven, no ticket is live, no lane is installed, and every item starts in its range. -/
theorem invariantsHoldAtReset : Obligations.InvariantsHoldAtReset :=
  ⟨divertersStill_reset, commitmentsKept_reset, lanesSound_reset, queuesOnlyWhileOpen_reset, underEyeLive_reset,
    InRange.reset.belt, InRange.reset.counters⟩
end

section
/-! What a flush makes of the part (R30, R32), and with it the soft reset (R166). -/

namespace Sys2Proof.Machine

open Sys2Proof.Safety

variable {s : State}

/-! ### The flush (R32) -/

/-- A flush changes the tickets with their tallies, the lanes, the channels and the ticket under the eye alone. -/
theorem flush_eq (s : State) : ∃ tallies lanes channels underEye length, s.flush = { s with
    tt := { s.tt with belt := [], tallies := tallies }
    lanes := lanes, channels := channels
    ind := { s.ind with underEye := underEye, blockedLength := length } } := by
  have frame : ∃ belt tallies lanes channels underEye length, s.flush = { s with
      tt := { s.tt with belt := belt, tallies := tallies }
      lanes := lanes, channels := channels
      ind := { s.ind with underEye := underEye, blockedLength := length } } := by
    refine State.flush_keeps (P := fun u => ∃ belt tallies lanes channels underEye length, u = { s with
      tt := { s.tt with belt := belt, tallies := tallies }
      lanes := lanes, channels := channels
      ind := { s.ind with underEye := underEye, blockedLength := length } }) s ⟨_, _, _, _, _, _, rfl⟩ ?_
    rintro _ t ⟨_, _, _, _, underEye, length, rfl⟩
    rw [remove_eq]
    dsimp only
    split
    · exact ⟨_, _, _, _, _, _, rfl⟩
    · exact ⟨_, _, _, _, _, _, rfl⟩
  obtain ⟨belt, tallies, lanes, channels, underEye, length, flushed⟩ := frame
  obtain rfl : belt = [] := by
    have empty := State.belt_flush s
    rw [flushed] at empty
    exact empty
  exact ⟨tallies, lanes, channels, underEye, length, flushed⟩

/-- The cell in which a ticket's flush is tallied, read as a row and a column (Table 2-3). -/
theorem tallyIndex_flushed (o : Option Outlet) (i : Fin 63) :
    tallyIndex o .flushed = i ↔ i.val % 7 = 6 ∧ tallyRow o = i.val / 7 := by
  have row : tallyRow o ≤ 8 := by
    cases o with
    | none => exact Nat.le_refl 8
    | some o => exact Nat.le_of_lt o.isLt
  rw [Fin.ext_iff, tallyIndex, Fin.val_ofNat, TicketOutcome.column]
  omega

/-- Counting up several times (R30). -/
theorem iterate_satInc (top n x : Nat) : (satInc top)^[n] x = if n = 0 then x else min (x + n) top := by
  induction n generalizing x with
  | zero => rfl
  | succ n ih =>
    rw [Function.iterate_succ_apply, ih, if_neg (Nat.succ_ne_zero n), satInc]
    split
    · omega
    · omega

/-- Each cell is counted up once for each ticket that is tallied in it. -/
theorem tallies_flush (s : State) (i : Fin 63) : s.flush.tt.tallies.get i =
    (satInc counterTop)^[s.tt.belt.countP (fun t => tallyIndex t.outlet .flushed == i)] (s.tt.tallies.get i) := by
  have removed : ∀ (ts : List Ticket) (u : State),
      (ts.foldl (fun s t => s.remove t .flushed) u).tt.tallies.get i =
        (satInc counterTop)^[ts.countP (fun t => tallyIndex t.outlet .flushed == i)] (u.tt.tallies.get i) := by
    intro ts
    induction ts with
    | nil => intro u; rfl
    | cons t ts ih =>
      intro u
      have tallied : (u.remove t .flushed).tt.tallies.get i =
          if i = tallyIndex t.outlet .flushed then satInc counterTop (u.tt.tallies.get i) else u.tt.tallies.get i := by
        rw [remove_eq]
        dsimp only
        rw [tableMod_get]
        split
        · rename_i e; rw [e]; rfl
        · rfl
      rw [List.foldl_cons, ih, tallied, List.countP_cons]
      by_cases e : i = tallyIndex t.outlet .flushed
      · rw [if_pos e, if_pos (by simp [e]), Function.iterate_succ_apply]
      · rw [if_neg e, if_neg (by simpa using Ne.symm e)]
        rfl
  exact removed s.tt.belt s

theorem flushTallied_flush (s : State) : FlushTallied s s.flush := by
  refine ⟨fun i other => ?_, fun i n column count => ?_⟩
  · have zero : s.tt.belt.countP (fun t => tallyIndex t.outlet .flushed == i) = 0 :=
      List.countP_eq_zero.mpr (fun t _ => by
        rw [beq_iff_eq, tallyIndex_flushed]
        exact fun h => other h.1)
    rw [tallies_flush, zero]
    rfl
  · have row : s.tt.belt.countP (fun t => tallyIndex t.outlet .flushed == i) = n := by
      rw [count]
      refine List.countP_congr (fun t _ => ?_)
      rw [beq_iff_eq, tallyIndex_flushed, and_iff_right column]
      cases t.outlet with
      | none => exact eq_comm.trans beq_iff_eq.symm
      | some o => exact beq_iff_eq.symm
    rw [tallies_flush, row]
    exact iterate_satInc _ _ _

/-- With no ticket live no commitment is left (R27). -/
theorem committed_of_empty (kept : CommitmentsKept s) (empty : s.tt.belt = []) (l : Lane) :
    (s.lane l).committed = 0 := by
  rw [kept.counts, commitmentsAt, empty]
  rfl

/-- With no ticket live none is under the eye (R29). -/
theorem underEye_of_empty (live : UnderEyeLive s) (empty : s.tt.belt = []) : s.ind.underEye = none := by
  refine Option.eq_none_iff_forall_ne_some.mpr (fun k under => ?_)
  obtain ⟨t, listed, -⟩ := live k under
  rw [empty] at listed
  exact absurd listed List.not_mem_nil

/-! ### The soft reset (R166) -/

/-- The failures of every lane are cleared, and nothing else changes (R113). -/
theorem clearFailures_eq (s : State) : ∃ lanes, s.clearFailures = { s with lanes := lanes } ∧
    ∀ l, lanes.get l = { s.lane l with failures := 0 } := by
  obtain ⟨lanes, cleared⟩ : ∃ lanes, s.clearFailures = { s with lanes := lanes } := by
    refine State.forLanes_keeps (P := fun u => ∃ lanes, u = { s with lanes := lanes }) s ⟨_, rfl⟩ ?_
    rintro _ l ⟨_, rfl⟩
    exact ⟨_, rfl⟩
  refine ⟨lanes, cleared, fun l => ?_⟩
  have lane : s.clearFailures.lane l = { s.lane l with failures := 0 } := by
    refine State.forLanes_read (fun u : State => u.lane l) s l _ (fun u same => ?_) (fun u m other => ?_)
    · have same : u.lane l = s.lane l := same
      rw [State.lane_modLane_self, same]
    · exact (State.lane_modLane u m l _).trans (if_neg (Ne.symm other))
  rw [cleared] at lane
  exact lane

/-- The reply in transmission has been sent: SDE is released (R172). -/
def State.silenced (s : State) : State := { s with sli := { s.sli with sending := none, sendTimer := 0 } }

/-- The reset comes with the end of the reply to SOFT RESET. -/
theorem exec_softResetEffect {r : Reply} (running : Running s) (begun : s.sli.reply = none)
    (sending : s.sli.sending = some r) (soft : r.softReset = true) (sent : s.replyTime r ≤ s.sli.sendTimer) :
    exec .softResetEffect s = .next s.silenced.softReset := by
  have due : s.timeLeft .replySent = some 0 := by
    rw [State.timeLeft, sending]
    exact congrArg some (Nat.sub_eq_zero_of_le sent)
  have comes : s.softResetComes = s.endReply := by
    unfold State.softResetComes
    rw [begun, sending]
    exact (if_pos soft).trans (State.awaitTimer_due due)
  have ends : s.endReply = s.silenced.softReset := by
    unfold State.endReply
    rw [sending]
    exact if_pos soft
  exact (State.event_running running State.softResetComes).trans (congrArg _ (comes.trans ends))

end Sys2Proof.Machine

open Sys2Proof.Machine Sys2Proof.Safety

/-- Settles O7: the reset is the flush of the part whose reply is sent, the clearing of the failures, and its own values
over what these leave. -/
theorem softResetTakesEffect : Obligations.SoftResetTakesEffect := by
  intro s r running begun sending soft sent
  have tallied : FlushTallied s.silenced s.silenced.flush := flushTallied_flush _
  have lane := State.lane_flush s.silenced
  obtain ⟨tallies, lanes, channels, underEye, length, flushed⟩ := flush_eq s.silenced
  rw [flushed] at tallied lane
  obtain ⟨cleared, clears, record⟩ := clearFailures_eq s.silenced.flush
  have record : ∀ l, cleared.get l = { s.lane l with failures := 0, committed := (cleared.get l).committed } := by
    intro l
    rw [record l, flushed]
    dsimp only
    rw [lane l]
    rfl
  have kept : CommitmentsKept s → CommitmentsKept s.silenced.softReset := fun kept =>
    CommitmentsKept.softReset (s := s.silenced) kept.alike
  rw [flushed] at clears
  rw [exec_softResetEffect running begun sending soft sent]
  unfold State.softReset at kept ⊢
  rw [flushed, clears] at kept ⊢
  exact ⟨_, rfl, rfl, rfl, rfl, rfl, tallied, get_replicate _, get_replicate _, record,
    fun h l => committed_of_empty (kept h) rfl l, rfl, rfl, rfl, rfl, rfl, rfl, rfl, rfl, rfl, rfl, running, rfl, rfl⟩
end

section
/-! Sections 10.2 and 10.3: SET MODE in every mode but from SETUP to RUN (R157, R158, R162). -/

namespace Sys2Proof.Machine

open Sys2Proof.Safety

variable {s : State} {m : Mode} {h : HeldFrom} {code : Byte} {st : Status}

/-! ### The replies of the mode commands (R173) -/

theorem heldCode_hold (h : HeldFrom) : (Mode.hold h).heldCode = h.mode.code := by cases h <;> rfl

/-- The mode characters of a reply follow the mode of the state answered. -/
theorem modeAnswer_eq (hm : s.mode = m) (st : Status) :
    s.modeAnswer st = (s, { status := st, data := [m.code, m.heldCode] }) := by
  rw [State.modeAnswer, State.modeChars, hm]

theorem modeAnswer_hold (hm : s.mode = .hold h) (st : Status) :
    s.modeAnswer st = (s, { status := st, data := [3, h.mode.code] }) := by
  rw [modeAnswer_eq hm, heldCode_hold]
  rfl

/-! ### Table 10-3 -/

/-- With no ticket live and no drive driven the drain ends at once, and the mode alone changes (R158, R163). -/
theorem drainCheck_ends (drain : s.mode = .drain) (empty : s.tt.belt = []) (still : ∀ l, ¬ Driven s l) :
    s.drainCheck = s.setMode .setup := (if_pos ⟨drain, empty⟩).trans (enterSetup_still s still)

section Answered

variable (l : Listening s)

include l

/-- A SET MODE that leaves the state answers with its mode characters. -/
theorem setMode_stays (hm : s.mode = m) (stays : cmdSetMode code s.frameDone = s.frameDone.modeAnswer st) :
    exec (.setMode code) s = .next (answered s st [m.code, m.heldCode]) :=
  State.station_answered l (stays.trans (modeAnswer_eq (s := s.frameDone) hm st)) rfl

theorem setMode_holds (hm : s.mode = .hold h) (stays : cmdSetMode code s.frameDone = s.frameDone.modeAnswer .state) :
    exec (.setMode code) s = .next (answered s .state [3, h.mode.code]) :=
  State.station_answered l (stays.trans (modeAnswer_hold (s := s.frameDone) hm .state)) rfl

/-- A code above 2 names no mode. -/
theorem setMode_unknown (hc : 2 < code.toNat) :
    exec (.setMode code) s = .next (answered s .badParam [s.mode.code, s.mode.heldCode]) := by
  refine setMode_stays l rfl ?_
  unfold cmdSetMode
  split
  case h_13 => rfl
  all_goals omega

theorem setMode_run_of_drain (hm : s.mode = .drain) :
    exec (.setMode 1) s = .next (answered { s with mc := { s.mc with mode := .run } } .ok [1, 0xFF]) := by
  have hm : s.frameDone.mode = .drain := hm
  refine State.station_answered l ?_ rfl
  unfold cmdSetMode
  rw [hm]
  rfl

/-- With a ticket live the drain goes on. -/
theorem setMode_drain (hm : s.mode = .run) (live : s.tt.belt ≠ []) :
    exec (.setMode 2) s = .next (answered { s with mc := { s.mc with mode := .drain } } .ok [2, 0xFF]) := by
  have hm : s.frameDone.mode = .run := hm
  have goesOn : (s.frameDone.setMode .drain).drainCheck = s.frameDone.setMode .drain :=
    State.drainCheck_of_goesOn (fun _ => live)
  refine State.station_answered l ?_ rfl
  unfold cmdSetMode
  rw [hm]
  show (s.frameDone.setMode .drain).drainCheck.modeAnswer .ok = _
  rw [goesOn]
  rfl

theorem setMode_drain_ends (hm : s.mode = .run) (empty : s.tt.belt = []) (still : ∀ l, ¬ Driven s l) :
    exec (.setMode 2) s = .next (answered { s with mc := { s.mc with mode := .setup } } .ok [0, 0xFF]) := by
  have hm : s.frameDone.mode = .run := hm
  refine State.station_answered l ?_ rfl
  unfold cmdSetMode
  rw [hm]
  show (s.frameDone.setMode .drain).drainCheck.modeAnswer .ok = _
  rw [drainCheck_ends (s := s.frameDone.setMode .drain) rfl empty still]
  rfl

end Answered

/-! ### SETUP from HOLD (R162) -/

/-- The flush and the entry into SETUP, taken apart: what they change, and the drives where nothing is driven. -/
theorem flushToSetup_eq (s : State) : ∃ tallies lanes channels underEye length drives, s.flushToSetup = { s with
    tt := { s.tt with belt := [], tallies := tallies }
    lanes := lanes, channels := channels, drives := drives
    ind := { s.ind with underEye := underEye, blockedLength := length }
    mc := { s.mc with mode := .setup } } ∧
    FlushTallied s { s with tt := { s.tt with tallies := tallies } } ∧
    (∀ l, lanes.get l = { s.lane l with committed := (lanes.get l).committed }) ∧
    ((∀ l, ¬ Driven s l) → drives = s.drives) := by
  have tallied := flushTallied_flush s
  have lane := State.lane_flush s
  obtain ⟨tallies, lanes, channels, underEye, length, flushed⟩ := flush_eq s
  unfold State.flushToSetup
  rw [flushed] at tallied lane ⊢
  obtain ⟨drives, channels', entered⟩ := enterSetup_eq { s with
    tt := { s.tt with belt := [], tallies := tallies }
    lanes := lanes, channels := channels
    ind := { s.ind with underEye := underEye, blockedLength := length } }
  refine ⟨tallies, lanes, channels', underEye, length, drives, entered, tallied, lane, fun still => ?_⟩
  have kept := congrArg State.drives (enterSetup_still { s with
    tt := { s.tt with belt := [], tallies := tallies }
    lanes := lanes, channels := channels
    ind := { s.ind with underEye := underEye, blockedLength := length } } still)
  rw [entered] at kept
  exact kept

end Sys2Proof.Machine

open Sys2Proof.Machine Sys2Proof.Safety

/-- Settles O44, cell by cell of Table 10-3; SETUP taken in HOLD is the flush and the entry into SETUP. -/
theorem setModeTable : Obligations.SetModeTable := by
  intro s l
  refine ⟨fun hm => ?_, fun hm => ?_, fun hm => ?_, fun h hm => ?_, fun code => setMode_unknown l⟩
  · have hm' : s.frameDone.mode = .setup := hm
    exact ⟨setMode_stays l hm (by unfold cmdSetMode; rw [hm']; rfl),
      setMode_stays l hm (by unfold cmdSetMode; rw [hm']; rfl)⟩
  · have hm' : s.frameDone.mode = .run := hm
    exact ⟨setMode_stays l hm (by unfold cmdSetMode; rw [hm']; rfl),
      setMode_stays l hm (by unfold cmdSetMode; rw [hm']; rfl), setMode_drain l hm, setMode_drain_ends l hm⟩
  · have hm' : s.frameDone.mode = .drain := hm
    exact ⟨setMode_stays l hm (by unfold cmdSetMode; rw [hm']; rfl), setMode_run_of_drain l hm,
      setMode_stays l hm (by unfold cmdSetMode; rw [hm']; rfl)⟩
  · have hm' : s.frameDone.mode = .hold h := hm
    refine ⟨setMode_holds l hm (by unfold cmdSetMode; rw [hm']; rfl),
      setMode_holds l hm (by unfold cmdSetMode; rw [hm']; rfl), ?_⟩
    have kept : CommitmentsKept s → CommitmentsKept s.frameDone.flushToSetup := fun kept =>
      (CommitmentsKept.flush (s := s.frameDone) kept.alike).enterSetup
    have live : UnderEyeLive s → UnderEyeLive s.frameDone.flushToSetup := fun live =>
      underEyeLive_iff.mpr (underEyeLive_iff.mp (show UnderEyeLive s.frameDone from live)).flushToSetup
    obtain ⟨tallies, lanes, channels, underEye, length, drives, entered, tallied, lane, still⟩ :=
      flushToSetup_eq s.frameDone
    rw [entered] at kept live
    have taken : exec (.setMode 0) s = .next (answered { s with
        tt := { s.tt with belt := [], tallies := tallies }
        lanes := lanes, channels := channels, drives := drives
        ind := { s.ind with underEye := underEye, blockedLength := length }
        mc := { s.mc with mode := .setup } } .ok [0, 0xFF]) := by
      refine State.station_answered l ?_ rfl
      unfold cmdSetMode
      rw [hm']
      show s.frameDone.flushToSetup.modeAnswer .ok = _
      rw [entered]
      rfl
    refine ⟨_, taken, rfl, rfl, tallied, rfl, rfl, fun stopped l driven => ?_, lane,
      fun h l => committed_of_empty (kept h) rfl l, rfl, rfl, rfl, fun h => underEye_of_empty (live h) rfl,
      rfl, rfl, rfl, rfl, rfl, rfl⟩
    have undriven := stopped.stillInHold (inHold_iff.mpr ⟨h, hm⟩)
    obtain rfl := still undriven
    exact undriven l driven
end

section
/-! Section 10.4: the entry into HOLD (R159) and the guard (R160). -/

namespace Sys2Proof.Machine

open Sys2Proof.Safety

variable {s : State} {l : Lane}

/-! ### Outside DRAIN no operation on tickets and strokes changes the mode (R158) -/

theorem mc_retire (h : s.mode ≠ .drain) (k : Slot) (o : TicketOutcome) : (s.retire k o).mc = s.mc := by
  unfold State.retire; split
  · rfl
  · rename_i t _
    rw [State.drainCheck_of_goesOn (fun drain => absurd drain (by rwa [State.mode, State.mc_remove]))]
    exact State.mc_remove s t o

theorem mc_sendToRunOff (h : s.mode ≠ .drain) (k : Slot) (r : Reason) : (s.sendToRunOff k r).mc = s.mc := by
  have written : ∀ f : Ticket → Ticket, (((s.modTicket k f).countRunOff r).storeBounds k).mc = s.mc := fun f => by
    rw [countRunOff_modTicket]
    show (s.countRunOff r).mc = s.mc
    unfold State.countRunOff
    split <;> rfl
  refine ite_keeps (P := fun u => u.mc = s.mc) ?_ (written _)
  exact (mc_retire (by rwa [State.mode, written]) k .lost).trans (written _)

theorem mc_missFire (h : s.mode ≠ .drain) (l : Lane) (t : Ticket) : (s.missFire l t).mc = s.mc := by
  have released : ((s.modChannel l (fun c => { c with armed := none })).releaseOf t).mc = s.mc := State.releaseOf_mc _ t
  exact (mc_sendToRunOff (by rwa [State.mode, released]) _ _).trans released

theorem mc_fire (h : s.mode ≠ .drain) (l : Lane) (late : Bool) : (s.fire l late).mc = s.mc := by
  obtain same | ⟨t, u, -, marked, cases⟩ := fire_cases s l late
  · rw [same]
  have same : u.mc = s.mc := by
    rw [marked]
    split <;> rfl
  have extended : (u.extendStroke l t).mc = u.mc := by
    unfold State.extendStroke
    split <;> rfl
  obtain ⟨-, e⟩ | ⟨-, e⟩ | ⟨-, ⟨-, e⟩ | ⟨-, e⟩ | ⟨-, e⟩⟩ := cases <;> rw [e]
  · exact same
  · exact (mc_missFire (by rwa [State.mode, same]) l t).trans same
  · exact same
  · exact extended.trans same
  · exact same

theorem mc_attendLane (h : s.mode ≠ .drain) (l : Lane) : (s.attendLane l).mc = s.mc :=
  attend_keeps (P := fun u => u.mc = s.mc) (fun u same => (State.disarm_mc u l).trans same) (fun _ _ same _ _ => same)
    (fun u same => (mc_fire (by rwa [State.mode, same]) l true).trans same) _ s rfl

theorem mc_judgeDeferred (h : s.mode ≠ .drain) (l : Lane) : (s.judgeDeferred l).mc = s.mc := by
  have missed : ∀ t, ((s.missFire l t).attendLane l).mc = s.mc := fun t =>
    have missed := mc_missFire h l t
    (mc_attendLane (by rwa [State.mode, missed]) l).trans missed
  have begun : ∀ t, ((s.beginStroke l t).attendLane l).mc = s.mc := fun t =>
    mc_attendLane (s := s.beginStroke l t) h l
  unfold State.judgeDeferred
  split
  · split
    · rfl
    · split
      · rfl
      · exact missed _
      · exact ite_keeps (P := fun u => u.mc = s.mc) (missed _) (begun _)
      · exact ite_keeps (P := fun u => u.mc = s.mc) (missed _) (begun _)
  all_goals rfl

theorem mc_recoverLane (h : s.mode ≠ .drain) (l : Lane) : (s.recoverLane l).mc = s.mc :=
  ite_keeps (P := fun u => u.mc = s.mc) (mc_judgeDeferred (s := s.driveRecover l) h l) rfl

theorem mc_abortLane (h : s.mode ≠ .drain) (l : Lane) : (s.abortLane l).mc = s.mc :=
  ite_keeps (P := fun u => u.mc = s.mc)
    (mc_recoverLane (s := (s.endStroking l (fun m => { m with aborted := true })).closeChannel l) h l) rfl

/-! ### The entry into HOLD (R159) -/

/-- The mode held from is recorded. -/
theorem mc_enterHold (s : State) (h : HeldFrom) : (s.enterHold h).mc = { s.mc with mode := .hold h } := by
  refine State.forLanes_keeps (P := fun u => u.mc = { s.mc with mode := .hold h }) _ rfl (fun u l same => ?_)
  exact (mc_abortLane (by rw [State.mode, same]; nofun) l).trans same

theorem flagSet_enterHold (s : State) (h : HeldFrom) : (s.enterHold h).flagSet .holdEntered = true :=
  (Steady.forLanes Steady.abortLane _).flagSet (flagSet_raise _ _)

theorem not_driven_enterHold (running : Running s) (h : HeldFrom) (l : Lane) : ¬ Driven (s.enterHold h) l :=
  (RunningStill.enterHold running h).still.stillInHold
    (inHold_iff.mpr ⟨h, congrArg ModeController.mode (mc_enterHold s h)⟩) l

/-- A lane that is not driven has no stroke to abort. -/
theorem abortLane_still (still : ¬ Driven s l) : s.abortLane l = s := if_neg (by rwa [driven_iff])

/-- With no drive driven the mode and the flag alone change. -/
theorem enterHold_still (still : ∀ l, ¬ Driven s l) (h : HeldFrom) :
    s.enterHold h = (s.setMode (.hold h)).raise .holdEntered :=
  State.forLanes_id _ (fun l => abortLane_still (s := (s.setMode (.hold h)).raise .holdEntered) (still l))

/-- The abort of a lane's stroke with a recovery time to run: its tickets become CONFIRMING with the mark, its channel
is open no more, and its drive recovers (R139, R137). -/
def State.aborted (s : State) (l : Lane) : State :=
  ((s.endStroking l (fun m => { m with aborted := true })).closeChannel l).modDrive l
    (fun d => recovering (s.lane l).recoveryTime d.kind)

theorem abortLane_driven (driven : Driven s l) (time : (s.lane l).recoveryTime ≠ 0) : s.abortLane l = s.aborted l :=
  (if_pos (driven_iff.mpr driven)).trans
    (recoverLane_eq (s := (s.endStroking l (fun m => { m with aborted := true })).closeChannel l) time)

/-- A single driven stroke is the only one aborted. -/
theorem abortLanes_one (driven : Driven s l) (alone : ∀ m, m ≠ l → ¬ Driven s m) (time : (s.lane l).recoveryTime ≠ 0) :
    s.forLanes State.abortLane = s.aborted l := by
  have turn := abortLane_driven driven time
  rw [State.forLanes_one s l (fun m other => abortLane_still (alone m other)), turn]
  intro m other
  rw [turn]
  refine abortLane_still (fun still => alone m other ?_)
  have drive : (s.aborted l).drive m = s.drive m := (State.drive_modDrive _ l m _).trans (if_neg other)
  unfold Driven at still ⊢
  rwa [drive] at still

/-! ### The guard (R160) -/

/-- The guard found open. -/
def State.guardOpen (s : State) : State := { s with mc := { s.mc with guard := .opened } }

theorem guardOpens_attending {h : HeldFrom} (closed : s.mc.guard = .closed) (mode : s.mode = h.mode) :
    s.guardOpens = s.guardOpen.enterHold h := by
  unfold State.guardOpens
  rw [closed]
  dsimp only
  rw [show State.mode { s with mc := { s.mc with guard := .opened } } = h.mode from mode]
  cases h <;> rfl

theorem guardOpens_setup (closed : s.mc.guard = .closed) (mode : s.mode = .setup) :
    s.guardOpens = s.guardOpen.endTestStrokes := by
  unfold State.guardOpens
  rw [closed]
  dsimp only
  rw [show State.mode { s with mc := { s.mc with guard := .opened } } = .setup from mode]
  rfl

/-- In HOLD the guard state alone changes. -/
theorem guardOpens_inHold {h : HeldFrom} (mode : s.mode = .hold h) : s.guardOpens = s.guardOpen := by
  unfold State.guardOpens
  cases guard : s.mc.guard with
  | opened =>
    have same : s.mc = { s.mc with guard := .opened } := by rw [← guard]
    exact congrArg (fun mc => { s with mc := mc }) same
  | closed =>
    dsimp only
    rw [show State.mode { s with mc := { s.mc with guard := .opened } } = .hold h from mode]
    rfl

/-- A drive that runs no test stroke stays as it was when the test strokes end (R141). -/
theorem endTestStrokes_drive (other : (s.drive l).inTest = false) : s.endTestStrokes.drive l = s.drive l := by
  refine State.forLanes_read (fun u : State => u.drive l) s l _ (fun u same => ?_) (fun u m ne => ?_)
  · have same : u.drive l = s.drive l := same
    rw [same, other]
    exact same
  · split
    · rw [drive_driveRecover, if_neg (Ne.symm ne)]
    · rfl

end Sys2Proof.Machine

open Sys2Proof.Machine Sys2Proof.Safety

/-- Settles O36, by the mode in which the guard opens: RUN and DRAIN enter HOLD, which aborts the strokes. -/
theorem guardEdges : Obligations.GuardEdges := by
  intro s running
  have opening : exec .guardOpening s = .next s.guardOpens := State.event_running running State.guardOpens
  refine ⟨State.event_running running (fun s => { s with mc := { s.mc with guard := .closed } }), fun hold => ?_,
    fun closed => ⟨fun h mode => ?_, fun mode => ?_⟩, fun listening mode opened lane duration low high => ?_⟩
  · obtain ⟨h, mode⟩ := inHold_iff.mp hold
    rw [opening, guardOpens_inHold mode]
    rfl
  · rw [opening, guardOpens_attending closed mode]
    refine ⟨⟨_, rfl, mc_enterHold s.guardOpen h, flagSet_enterHold s.guardOpen h,
      not_driven_enterHold (s := s.guardOpen) running h, ?_⟩, fun still => ?_, fun l driven alone time => ?_⟩
    · have steady := Steady.enterHold s.guardOpen h
      exact ⟨steady.cat, steady.geo, steady.bcu, steady.rli, steady.em, steady.carrier⟩
    · rw [enterHold_still (s := s.guardOpen) still]
      rfl
    · have entered : s.guardOpen.enterHold h = ((s.guardOpen.setMode (.hold h)).raise .holdEntered).aborted l :=
        abortLanes_one driven alone time
      rw [entered, State.aborted, endStroking_eq]
      rfl
  · rw [opening, guardOpens_setup closed mode]
    have ended (l) := endTestStrokes_not_driven (s := s.guardOpen) (l := l)
    have other (l) := endTestStrokes_drive (s := s.guardOpen) (l := l)
    obtain ⟨drives, ends⟩ := endTestStrokes_drives s.guardOpen
    rw [ends] at ended other ⊢
    exact ⟨_, rfl, rfl, ended, other, rfl, rfl, rfl, rfl, rfl, rfl⟩
  · exact testStroke_guardOpen listening mode (l := ⟨lane.toNat - 1, by omega⟩) (by dsimp only; omega) opened
end

section
/-! The reaches of the present count that RESUME finds outstanding (R5, R129): what each is, what taking them leaves of
the part, and that a missed fire leaves none behind. -/

namespace Sys2Proof.Machine

open Sys2Proof.Safety

variable {s : State} {t w : Ticket} {l : Lane}

/-! ### What is outstanding -/

/-- Every outstanding reach is of a kind. -/
structure DueWithin (s : State) (kind : CountReach → Prop) : Prop where
  capture : s.bcu.capture.isSome = true → kind .capture
  holdLimit : s.holdLimitDue = true → kind .holdLimit
  readWindow : ∀ t ∈ s.tt.belt, t.windowDue s.bcu.count = true → kind (.readWindow t.slot)
  fire : ∀ l, s.fireIsDue l = true → kind (.fire l)
  strokeEnd : ∀ l, s.strokeEndIsDue l = true → kind (.strokeEnd l)
  confirmClose : ∀ t, s.nextClose? = some t → kind (.confirmClose t.slot)
  endWindow : ∀ t ∈ s.tt.belt, s.endReached t.slot = true → kind (.endWindow t.slot)

theorem dueWithin_iff {kind : CountReach → Prop} : DueWithin s kind ↔ ∀ r ∈ s.countDue, kind r := by
  unfold State.countDue
  simp only [List.forall_mem_append, List.forall_mem_map, List.mem_filter, and_imp, Option.mem_toList]
  constructor
  · rintro ⟨capture, holdLimit, readWindow, fire, strokeEnd, confirmClose, endWindow⟩
    refine ⟨⟨⟨⟨⟨⟨?_, ?_⟩, readWindow⟩, fun l _ => fire l⟩, fun l _ => strokeEnd l⟩, confirmClose⟩, endWindow⟩
    · split
      · simpa using capture ‹_›
      · simp
    · split
      · simpa using holdLimit ‹_›
      · simp
  · rintro ⟨⟨⟨⟨⟨⟨capture, holdLimit⟩, readWindow⟩, fire⟩, strokeEnd⟩, confirmClose⟩, endWindow⟩
    refine ⟨fun h => ?_, fun h => ?_, readWindow, fun l => fire l (mem_allLanes l),
      fun l => strokeEnd l (mem_allLanes l), confirmClose, endWindow⟩
    · simpa [h] using capture
    · simpa [h] using holdLimit

theorem countDue_eq_nil : s.countDue = [] ↔ DueWithin s (fun _ => False) := by
  rw [dueWithin_iff, List.eq_nil_iff_forall_not_mem]

theorem DueWithin.imp {kind kind' : CountReach → Prop} (due : DueWithin s kind) (h : ∀ r, kind r → kind' r) :
    DueWithin s kind' := dueWithin_iff.mpr (fun r listed => h r (dueWithin_iff.mp due r listed))

theorem dueWithin_of_one {r : CountReach} (h : s.countDue = [r]) : DueWithin s (· = r) :=
  dueWithin_iff.mpr (fun _ listed => List.mem_singleton.mp (h ▸ listed))

/-- With its capture taken into P8, a state whose one reach was the capture has none outstanding. -/
theorem dueWithin_withP8 (due : DueWithin s (· = .capture)) (v : Nat) : DueWithin (s.withP8 v) (fun _ => False) where
  capture := nofun
  holdLimit h := nomatch due.holdLimit h
  readWindow t listed h := nomatch due.readWindow t listed h
  fire l h := nomatch due.fire l h
  strokeEnd l h := nomatch due.strokeEnd l h
  confirmClose t h := nomatch due.confirmClose t h
  endWindow t listed h := nomatch due.endWindow t listed h

theorem holdLimitDue_iff : s.holdLimitDue = true ↔ ∃ k x, s.ind.underEye = some k ∧ s.ticketAt? k = some x ∧
    isReached s.bcu.count (holdLimit x) = true := by
  unfold State.holdLimitDue
  cases under : s.ind.underEye with
  | none => simp
  | some k => cases found : s.ticketAt? k <;> simp [found, State.now]

/-! ### A miss leaves no reach behind (R124) -/

/-- The record of a slot after one ticket's record has been written anew in its own slot. -/
theorem ticketAt?_written (hd : SlotsDistinct s) (live : t ∈ s.tt.belt) (slot : w.slot = t.slot)
    (j : Slot) : (s.modTicket t.slot (fun _ => w)).ticketAt? j =
      if j = t.slot then some w else s.ticketAt? j := by
  have kept : s.modTicket t.slot (fun _ => w) = s.modTicket t.slot (fun u => { w with slot := u.slot }) :=
    modTicket_congr hd live rfl (by rw [← slot])
  rw [kept, State.ticketAt?_modTicket _ _ _ _ (by intro _; rfl)]
  split
  · rename_i e
    rw [e, State.ticketAt?_of_mem hd live, Option.map_some, if_pos rfl, ← slot]
  · rename_i e
    cases found : s.ticketAt? j with
    | none => rfl
    | some x =>
      have other : x.slot ≠ t.slot := fun at_t => e ((State.ticketAt?_some found).2.symm.trans at_t)
      rw [Option.map_some, if_neg other]

/-- A record that a miss writes: RUNNING_OFF in its slot, with its end window ahead. -/
structure RunsOff (s : State) (t w : Ticket) : Prop where
  slot : w.slot = t.slot
  induction : w.induction = t.induction
  state : w.state = .runningOff
  ahead : ∃ b, w.endBounds = some b ∧ isReached s.bcu.count b.2 = false

theorem runsOff_ranOff (ahead : isReached s.bcu.count (endBoundsOf s t).2 = false) (r : Reason) :
    RunsOff s t (ranOff s r t) := ⟨rfl, rfl, rfl, _, rfl, ahead⟩

/-- A fire missed where it was the one reach outstanding leaves none: the ticket has left the queue, its window is
ahead, and nothing else has changed that a reach depends on. -/
theorem countDue_missedAs (hd : SlotsDistinct s) (live : t ∈ s.tt.belt) (off : RunsOff s t w)
    (due : DueWithin s (· = .fire l)) : (s.missedAs l t.slot w).countDue = [] := by
  obtain ⟨slot, induction, state, b, bounds, ahead⟩ := off
  have found : ∀ j, (s.missedAs l t.slot w).ticketAt? j = if j = t.slot then some w else s.ticketAt? j :=
    ticketAt?_written hd live slot
  have record : ∀ v ∈ (s.missedAs l t.slot w).tt.belt, v = w ∨ (v ∈ s.tt.belt ∧ v.slot ≠ t.slot) := by
    intro v listed
    obtain ⟨x, before, rfl⟩ := List.mem_map.mp listed
    split
    · exact .inl rfl
    · exact .inr ⟨before, ‹_›⟩
  have channel : ∀ m, (s.missedAs l t.slot w).channel m =
      if m = l then { s.channel l with armed := none } else s.channel m := fun m => State.channel_modChannel _ l m _
  have count : (s.missedAs l t.slot w).now = s.now := rfl
  refine countDue_eq_nil.mpr ⟨fun h => (nomatch due.capture h), fun h => ?_, fun v listed h => ?_, fun m h => ?_,
    fun m h => ?_, fun v h => ?_, fun v listed h => ?_⟩
  · obtain ⟨k, x, under, at_k, reached⟩ := holdLimitDue_iff.mp h
    have before : s.holdLimitDue = true := by
      rw [found] at at_k
      split at at_k
      · rename_i e
        obtain rfl := Option.some.inj at_k
        refine holdLimitDue_iff.mpr ⟨k, t, under, e ▸ State.ticketAt?_of_mem hd live, ?_⟩
        rwa [holdLimit, ← induction]
      · exact holdLimitDue_iff.mpr ⟨k, x, under, at_k, reached⟩
    exact nomatch due.holdLimit before
  · obtain rfl | ⟨before, -⟩ := record v listed
    · simp [Ticket.windowDue, Ticket.isPending, state] at h
    · exact nomatch due.readWindow v before h
  · unfold State.fireIsDue at h
    rw [channel, count] at h
    by_cases e : m = l
    · rw [if_pos e] at h
      cases h
    · rw [if_neg e] at h
      exact e (CountReach.fire.inj (due.fire m h))
  · have same : ((s.missedAs l t.slot w).channel m).strokeEnd = (s.channel m).strokeEnd := by
      rw [channel]
      split
      · rename_i e; rw [e]
      · rfl
    unfold State.strokeEndIsDue at h
    rw [same, count] at h
    exact nomatch due.strokeEnd m h
  · have closes : v.closeDue s.now = true := List.find?_some h
    obtain rfl | ⟨before, -⟩ := record v (List.mem_of_find?_eq_some h)
    · simp [Ticket.closeDue, state] at closes
    · obtain ⟨x, next⟩ := Option.isSome_iff_exists.mp (List.find?_isSome.mpr ⟨v, before, closes⟩)
      exact nomatch due.confirmClose x next
  · obtain rfl | ⟨before, other⟩ := record v listed
    · have at_w := (found v.slot).trans (if_pos slot)
      rw [endReached_eq_false at_w bounds ahead] at h
      cases h
    · unfold State.endReached at h
      rw [found, if_neg other, count] at h
      exact nomatch due.endWindow v before h

/-! ### What RESUME settles -/

/-- A due fire alone is missed in HOLD, and nothing is left (R129). -/
theorem settle_fire {a : Armed} (running : Running s) (hold : InHold s) (alone : ArmedAlone s l a t)
    (reached : isReached s.bcu.count a.planned = true) (due : s.countDue = [.fire l])
    (ahead : isReached s.bcu.count (endBoundsOf s t).2 = false) : s.settle = s.fireMissed l t := by
  have taken : s.takeReach (.fire l) = s.fireMissed l t := by
    have row := exec_fireDue_hold running hold alone.head alone.notDeferred reached ahead
    rw [attendLane_empty _ l (routeQueue_fireMissed alone.head)] at row
    have event : exec (.fireDue l) s = .next (s.takeReach (.fire l)) :=
      State.event_running running (fun s => s.onFireDue l)
    exact Host.Outcome.next.inj (event.symm.trans row)
  rw [← taken]
  refine settle_of_one due ?_
  rw [taken]
  exact countDue_missedAs alone.slots alone.mem.1 (runsOff_ranOff ahead .missed) (dueWithin_of_one due)

/-- The state after a capture that finds the armed ticket's new planned fire count reached in HOLD, its end window being
ahead (R7, R116, R124). -/
def State.captureMissed (s : State) (v : Nat) (l : Lane) (t : Ticket) : State :=
  (s.withP8 v).missedAs l t.slot (ranOff s .missed (lateTicket (plannedNow (s.withP8 v) l t) t))

/-- A capture alone that finds the armed ticket's new planned fire count reached has it missed in HOLD, and nothing is
left (R116, R129). -/
theorem settle_capture {a : Armed} {v : Nat} (hold : InHold s) (alone : ArmedAlone s l a t)
    (captured : s.bcu.capture = some v) (due : s.countDue = [.capture])
    (others : ∀ m, m ≠ l → (s.channel m).armed = none)
    (reached : isReached s.bcu.count (plannedNow (s.withP8 v) l t) = true)
    (ahead : isReached s.bcu.count (endBoundsOf s t).2 = false) :
    s.settle = s.captureMissed v l t := by
  have alone' : ArmedAlone (s.withP8 v) l a t :=
    ⟨alone.slots, alone.channel, alone.notDeferred, alone.queue, alone.slot, alone.state⟩
  have taken : s.takeReach .capture = s.captureMissed v l t := by
    refine (takeCapture_of_some captured).trans (recomputeLeads_one (s := s.withP8 v)
      (recomputeLane_misses alone' reached hold ahead) others (fun m other => ?_))
    exact (State.channel_modChannel _ l m _).trans (if_neg other)
  rw [← taken]
  refine settle_of_one due ?_
  rw [taken]
  exact countDue_missedAs (s := s.withP8 v) alone.slots alone.mem.1
    (w := ranOff s .missed (lateTicket (plannedNow (s.withP8 v) l t) t)) ⟨rfl, rfl, rfl, _, rfl, ahead⟩
    ((dueWithin_withP8 (dueWithin_of_one due) v).imp (fun _ => False.elim))

/-! ### What settling leaves of the part -/

/-- What no reach of a belt count touches, in a part that has taken some. -/
structure Settled (s u : State) : Prop where
  apart : Apart s u
  rli : u.rli = s.rli
  address : u.sli.address = s.sli.address
  bcu : u.bcu = { s.bcu with p8 := u.bcu.p8, capture := u.bcu.capture }
  uncaptured : s.bcu.capture = none → u.bcu = s.bcu

namespace Settled

variable {u v : State}

theorem of_steady (k : Steady s u) : Settled s u :=
  ⟨k.apart, k.rli, by rw [k.sli], by rw [k.bcu], fun _ => k.bcu⟩

theorem refl (s : State) : Settled s s := of_steady (Steady.refl s)

theorem trans (h : Settled s u) (k : Settled u v) : Settled s v where
  apart := h.apart.trans k.apart
  rli := k.rli.trans h.rli
  address := k.address.trans h.address
  bcu := by rw [k.bcu, h.bcu]
  uncaptured free := by
    have same := h.uncaptured free
    exact (k.uncaptured (by rw [same]; exact free)).trans same

theorem takeCapture (s : State) : Settled s s.takeCapture := by
  cases captured : s.bcu.capture with
  | none =>
    rw [takeCapture_of_none captured]
    exact refl s
  | some v =>
    rw [takeCapture_of_some captured]
    have handed : Settled s (s.withP8 v) :=
      ⟨⟨rfl, rfl, rfl, rfl, rfl, rfl⟩, rfl, rfl, rfl, fun free => nomatch free.symm.trans captured⟩
    exact handed.trans (of_steady (Steady.recomputeLeads _))

/-- The ticket under the eye ends there: the eye is freed, and the rest is its record and its resolution (R47). -/
theorem endUnderEye (s : State) (n : Nat) : Settled s (s.endUnderEye n) := by
  have freed : Settled s s.eyeFreed := ⟨⟨rfl, rfl, rfl, rfl, rfl, rfl⟩, rfl, rfl, rfl, fun _ => rfl⟩
  unfold State.endUnderEye; split
  · exact refl s
  · rename_i k _
    have measured : Settled s (s.eyeFreed.modTicket k (fun t => { t with length := some n })) :=
      freed.trans (of_steady (Steady.modTicket _ _ _))
    dsimp only; split
    · exact measured
    · exact ite_keeps (measured.trans (of_steady (Steady.resolve _ _ _)))
        (ite_keeps (measured.trans (of_steady ((Steady.modTicket _ _ _).trans (Steady.resolve _ _ _))))
          (measured.trans (of_steady (Steady.modTicket _ _ _))))

theorem takeReach (s : State) (r : CountReach) : Settled s (s.takeReach r) := by
  cases r with
  | capture => exact takeCapture s
  | holdLimit => exact ite_keeps (endUnderEye s 1023) (refl s)
  | readWindow k =>
    show Settled s (s.expireReadWindow k)
    unfold State.expireReadWindow; split
    · exact refl s
    · exact ite_keeps (of_steady (Steady.resolve _ _ _)) (refl s)
  | fire l => exact ite_keeps (of_steady (Steady.takeDueFire s l)) (refl s)
  | strokeEnd l => exact ite_keeps (of_steady (Steady.strokeEnds s l)) (refl s)
  | confirmClose k =>
    show Settled s (s.onConfirmClose k)
    unfold State.onConfirmClose; split
    · exact refl s
    · exact ite_keeps (of_steady (Steady.closeConfirm s k)) (refl s)
  | endWindow k => exact ite_keeps (of_steady (Steady.expireEnd s k)) (refl s)

theorem settle (s : State) : Settled s s.settle :=
  settle_keeps (P := Settled s) (fun u r h _ => h.trans (takeReach u r))
    (fun _ h => h.trans ⟨⟨rfl, rfl, rfl, rfl, rfl, rfl⟩, rfl, rfl, rfl, fun _ => rfl⟩) s (refl s)

end Settled

end Sys2Proof.Machine
end

section
/-! Sections 10.4 and 11.2: HOLD and RESUME in every mode, by station and by broadcast (R159, R161, R170). -/

namespace Sys2Proof.Machine

open Sys2Proof.Safety

variable {s : State} {m : Mode} {h : HeldFrom} {st : Status}

/-! ### A command by broadcast (R170) -/

/-- A listening station takes a broadcast that makes this of its state. -/
theorem broadcasting_unanswered {t : State} {f : State → State × Answer} (l : Listening s)
    (hf : (f s.frameDone).1 = t.frameDone) : s.broadcasting f = .next (unanswered t) :=
  (State.broadcasting_listening l f).trans (congrArg _ hf)

/-- A command that leaves the state is answered by its status, and changes the frame state alone by broadcast. -/
theorem command_stays {f : State → State × Answer} {data : List Byte} (l : Listening s)
    (stays : f s.frameDone = (s.frameDone, { status := st, data := data })) :
    s.station f = .next (answered s st data) ∧ s.broadcasting f = .next (unanswered s) :=
  ⟨State.station_answered l stays rfl, broadcasting_unanswered l (congrArg Prod.fst stays)⟩

/-! ### What the commands do -/

theorem heldCode_from (h : HeldFrom) : h.mode.heldCode = 0xFF := by cases h <;> rfl

theorem cmdHold_setup (hm : s.mode = .setup) : cmdHold s = s.modeAnswer .state := by
  unfold cmdHold; rw [hm]

theorem cmdHold_hold (hm : s.mode = .hold h) : cmdHold s = s.modeAnswer .ok := by
  unfold cmdHold; rw [hm]

theorem cmdHold_enters (hm : s.mode = h.mode) : cmdHold s = (s.enterHold h).modeAnswer .ok := by
  unfold cmdHold; rw [hm]; cases h <;> rfl

theorem cmdResume_outside (hm : s.mode = .setup ∨ s.mode = .run ∨ s.mode = .drain) :
    cmdResume s = s.modeAnswer .state := by
  unfold cmdResume
  obtain hm | hm | hm := hm <;> rw [hm]

theorem cmdResume_opened (hm : s.mode = .hold h) (opened : s.mc.guard = .opened) :
    cmdResume s = s.modeAnswer .state := by
  unfold cmdResume; rw [hm, opened]

theorem cmdResume_closed (hm : s.mode = .hold h) (closed : s.mc.guard = .closed) :
    cmdResume s = (s.settle.setMode h.mode).drainCheck.modeAnswer .ok := by
  unfold cmdResume; rw [hm, closed]

theorem modeAnswer_from (hm : s.mode = h.mode) (st : Status) :
    s.modeAnswer st = (s, { status := st, data := [h.mode.code, 0xFF] }) := by
  rw [modeAnswer_eq hm, heldCode_from]

/-! ### HOLD from RUN and DRAIN (R159) -/

section Entered

variable (l : Listening s) (hm : s.mode = h.mode)

include l hm

theorem hold_enters : ∃ t, exec (.hold false) s = .next t ∧ t.mode = .hold h ∧ t.flagSet .holdEntered = true ∧
    (∀ l, ¬ Driven t l) ∧ t.sli.reply = some { status := .ok, data := [3, h.mode.code] } := by
  have mode : (s.frameDone.enterHold h).mode = .hold h := congrArg ModeController.mode (mc_enterHold s.frameDone h)
  have flag := flagSet_enterHold s.frameDone h
  have still := not_driven_enterHold (s := s.frameDone) l.running h
  have address : (s.frameDone.enterHold h).sli.address = s.sli.address := by
    rw [(Steady.enterHold s.frameDone h).sli]
    rfl
  have taken := cmdHold_enters (s := s.frameDone) hm
  rw [modeAnswer_hold mode] at taken
  generalize s.frameDone.enterHold h = u at mode flag still address taken
  refine ⟨{ u with sli := { u.sli with reply := some { status := .ok, data := [3, h.mode.code] }, quietTimer := 0 } },
    ?_, mode, flag, still, rfl⟩
  refine (State.station_listening l cmdHold).trans (congrArg _ ?_)
  rw [State.takeCommand, taken]
  exact if_neg (show ¬ u.sli.address = 0 from address ▸ l.addressed)

/-- With no drive driven the mode and the flag alone change beside the frame state. -/
theorem hold_still (still : ∀ l, ¬ Driven s l) :
    exec (.hold false) s = .next (answered { s with
      mc := { s.mc with mode := .hold h }, sli := { s.sli with flags := s.sli.flags ||| 128 } } .ok [3, h.mode.code]) ∧
    exec (.hold true) s = .next (unanswered { s with
      mc := { s.mc with mode := .hold h }, sli := { s.sli with flags := s.sli.flags ||| 128 } }) := by
  have taken : cmdHold s.frameDone = ((s.frameDone.setMode (.hold h)).raise .holdEntered,
      { status := .ok, data := [3, h.mode.code] }) := by
    rw [cmdHold_enters (s := s.frameDone) hm, enterHold_still (s := s.frameDone) still, modeAnswer_hold (h := h) rfl]
  exact ⟨State.station_answered l taken rfl, broadcasting_unanswered l (congrArg Prod.fst taken)⟩

/-- RESUME outside HOLD is refused. -/
theorem resume_refused : exec (.resume false) s = .next (answered s .state [h.mode.code, 0xFF]) ∧
    exec (.resume true) s = .next (unanswered s) := by
  have outside : s.mode = .setup ∨ s.mode = .run ∨ s.mode = .drain := by
    rw [hm]
    cases h
    · exact .inr (.inl rfl)
    · exact .inr (.inr rfl)
  exact command_stays l
    ((cmdResume_outside (s := s.frameDone) outside).trans (modeAnswer_from (s := s.frameDone) hm .state))

end Entered

/-! ### The mode restored (R161) -/

/-- The restored mode stands, or a restored DRAIN with an empty belt list has gone on to SETUP (R158). -/
theorem drainCheck_setMode (u : State) (h : HeldFrom) :
    (u.setMode h.mode).drainCheck.mode = h.mode ∨
      (h = .drain ∧ (u.setMode h.mode).drainCheck.tt.belt = [] ∧ (u.setMode h.mode).drainCheck.mode = .setup) := by
  unfold State.drainCheck
  split
  · rename_i ends
    right
    obtain ⟨drives, channels, entered⟩ := enterSetup_eq (u.setMode h.mode)
    rw [entered]
    refine ⟨?_, ends.2, rfl⟩
    cases h with
    | run => nomatch ends.1
    | drain => rfl
  · exact .inl rfl

section Taken

variable (l : Listening s) (hm : s.mode = .hold h) (closed : s.mc.guard = .closed)

include l hm closed

/-- Where settling makes a known state of it and no drain ends, RESUME restores the mode over that state. -/
theorem resume_settled {u : State} (settled : s.frameDone.settle = u.frameDone)
    (address : u.sli.address = s.sli.address) (goesOn : h.mode = .drain → u.tt.belt ≠ []) :
    exec (.resume false) s =
      .next (answered { u with mc := { u.mc with mode := h.mode } } .ok [h.mode.code, 0xFF]) ∧
    exec (.resume true) s = .next (unanswered { u with mc := { u.mc with mode := h.mode } }) := by
  have taken : cmdResume s.frameDone = (u.frameDone.setMode h.mode,
      { status := .ok, data := [h.mode.code, 0xFF] }) := by
    rw [cmdResume_closed (s := s.frameDone) hm closed, settled,
      State.drainCheck_of_goesOn (s := u.frameDone.setMode h.mode) goesOn,
      modeAnswer_eq (s := u.frameDone.setMode h.mode) (m := h.mode) rfl, heldCode_from]
  exact ⟨State.station_answered (t := { u with mc := { u.mc with mode := h.mode } }) l taken address,
    broadcasting_unanswered (t := { u with mc := { u.mc with mode := h.mode } }) l (congrArg Prod.fst taken)⟩

/-- A due fire alone is missed before the mode is restored (R129). -/
theorem resume_fire {c : Lane} {a : Armed} {t : Ticket} (alone : ArmedAlone s c a t)
    (reached : isReached s.bcu.count a.planned = true) (due : s.countDue = [.fire c])
    (ahead : isReached s.bcu.count (endBoundsOf s t).2 = false) : exec (.resume false) s =
      .next (answered { s.fireMissed c t with mc := { s.mc with mode := h.mode } } .ok [h.mode.code, 0xFF]) := by
  have alone' : ArmedAlone s.frameDone c a t := { alone with }
  refine (resume_settled (u := s.fireMissed c t) l hm closed ?_ rfl (fun _ empty => ?_)).1
  · rw [settle_fire (s := s.frameDone) l.running (inHold_iff.mpr ⟨h, hm⟩) alone' reached due ahead]
    rfl
  · exact List.ne_nil_of_mem alone.mem.1 (List.map_eq_nil_iff.mp empty)

/-- A capture alone that finds the planned fire count reached has the fire missed before the mode is restored (R116,
R129). -/
theorem resume_capture {c : Lane} {a : Armed} {t : Ticket} {v : Nat} (alone : ArmedAlone s c a t)
    (captured : s.bcu.capture = some v) (due : s.countDue = [.capture])
    (others : ∀ m, m ≠ c → (s.channel m).armed = none)
    (reached : isReached s.bcu.count (plannedNow (s.withP8 v) c t) = true)
    (ahead : isReached s.bcu.count (endBoundsOf s t).2 = false) : exec (.resume false) s =
      .next (answered { s.captureMissed v c t with mc := { s.mc with mode := h.mode } } .ok [h.mode.code, 0xFF]) := by
  have alone' : ArmedAlone s.frameDone c a t := { alone with }
  refine (resume_settled (u := s.captureMissed v c t) l hm closed ?_ rfl (fun _ empty => ?_)).1
  · rw [settle_capture (s := s.frameDone) (inHold_iff.mpr ⟨h, hm⟩) alone' captured due others reached ahead]
    rfl
  · exact List.ne_nil_of_mem alone.mem.1 (List.map_eq_nil_iff.mp empty)

/-- With no ticket live and no drive driven, a restored DRAIN ends at once. -/
theorem resume_ends (due : s.countDue = []) (drain : h = .drain) (empty : s.tt.belt = []) (still : ∀ l, ¬ Driven s l) :
    exec (.resume false) s = .next (answered { s with mc := { s.mc with mode := .setup } } .ok [0, 0xFF]) := by
  subst drain
  refine State.station_answered (t := { s with mc := { s.mc with mode := .setup } }) l ?_ rfl
  rw [cmdResume_closed (s := s.frameDone) hm closed, settle_of_none (s := s.frameDone) due,
    drainCheck_ends (s := s.frameDone.setMode HeldFrom.drain.mode) rfl empty still]
  rfl

/-- RESUME in any case: the reaches outstanding are settled, and the mode is restored. -/
theorem resume_restores : ∃ t, exec (.resume false) s = .next t ∧
    (t.mode = h.mode ∨ (h = .drain ∧ t.tt.belt = [] ∧ t.mode = .setup)) ∧
    t.sli.reply = some { status := .ok, data := [t.mode.code, 0xFF] } ∧ Settled s t := by
  have settled := Settled.settle s.frameDone
  have restored := drainCheck_setMode s.frameDone.settle h
  have steady := (Steady.setMode s.frameDone.settle h.mode).trans (Steady.drainCheck _)
  have reached : Settled s.frameDone (s.frameDone.settle.setMode h.mode).drainCheck :=
    settled.trans (.of_steady steady)
  have taken := cmdResume_closed (s := s.frameDone) hm closed
  generalize (s.frameDone.settle.setMode h.mode).drainCheck = u at restored reached taken
  have code : u.mode.heldCode = 0xFF := by
    obtain mode | ⟨-, -, mode⟩ := restored <;> rw [mode]
    · exact heldCode_from h
    · rfl
  rw [modeAnswer_eq (s := u) rfl, code] at taken
  refine ⟨{ u with sli := { u.sli with
    reply := some { status := .ok, data := [u.mode.code, 0xFF] }, quietTimer := 0 } }, ?_, restored, rfl, ?_⟩
  · refine (State.station_listening l cmdResume).trans (congrArg _ ?_)
    rw [State.takeCommand, taken]
    exact if_neg (show ¬ u.sli.address = 0 from reached.address ▸ l.addressed)
  · obtain ⟨⟨carrier, cat, geo, em, reset, pending⟩, rli, address, bcu, uncaptured⟩ := reached
    exact ⟨⟨carrier, cat, geo, em, reset, pending⟩, rli, address, bcu, uncaptured⟩

end Taken

end Sys2Proof.Machine

open Sys2Proof.Machine Sys2Proof.Safety

/-- Settles O46, mode by mode; in HOLD with the guard closed RESUME is the settling of what is outstanding and the
restored mode. -/
theorem holdAndResume : Obligations.HoldAndResume := by
  intro s l
  refine ⟨fun hm => ?_, fun h hm => ?_, fun h hm => ?_⟩
  · have hold := command_stays l
      ((cmdHold_setup (s := s.frameDone) hm).trans (modeAnswer_eq (s := s.frameDone) hm .state))
    have resume := command_stays l
      ((cmdResume_outside (s := s.frameDone) (.inl hm)).trans (modeAnswer_eq (s := s.frameDone) hm .state))
    exact ⟨hold.1, resume.1, hold.2, resume.2⟩
  · exact ⟨(resume_refused l hm).1, (resume_refused l hm).2, hold_enters l hm, hold_still l hm⟩
  · have hold := command_stays l
      ((cmdHold_hold (s := s.frameDone) hm).trans (modeAnswer_hold (s := s.frameDone) hm .ok))
    refine ⟨hold.1, hold.2, fun opened => ?_, fun closed => ?_, fun closed c a t alone reached due ahead => ?_, ?_,
      fun closed due goesOn => ?_, fun closed => resume_ends l hm closed⟩
    · exact command_stays l
        ((cmdResume_opened (s := s.frameDone) hm opened).trans (modeAnswer_hold (s := s.frameDone) hm .state))
    · obtain ⟨t, taken, mode, reply, settled⟩ := resume_restores l hm closed
      exact ⟨t, taken, mode, reply, settled.apart.cat, settled.apart.geo, settled.bcu, settled.uncaptured, settled.rli,
        settled.apart.em⟩
    · rw [resume_fire l hm closed alone reached due ahead]
      rfl
    · rintro closed c a t v p lead planned alone captured due others rfl rfl rfl reached ahead
      rw [resume_capture l hm closed alone captured due others reached ahead]
      rfl
    · refine resume_settled l hm closed (settle_of_none (s := s.frameDone) due) rfl (fun drain => ?_)
      obtain rfl | live := goesOn
      · cases drain
      · exact live
end

section
/-! Section 11.2: the characters of the supervisory line, each by the frame state in which it comes (R169, R170, R172). -/

namespace Sys2Proof.Machine

open Sys2Proof.Safety

variable {s : State} {v : Byte}

/-! ### Characters taken and not taken (R172) -/

theorem sdeAsserted_silent (silent : s.sli.sending = none) : s.sdeAsserted = false := by
  rw [State.sdeAsserted, silent]
  rfl

theorem sdeAsserted_sending (sending : s.sli.sending ≠ none) : s.sdeAsserted = true :=
  Option.isSome_iff_ne_none.mpr sending

theorem exec_addressCharacter_sending (running : Running s) (sending : s.sli.sending ≠ none) (v : Byte) :
    exec (.addressCharacter v) s = .next s :=
  (State.event_running running (fun s => if s.sdeAsserted then s else s.lineMarked v)).trans
    (congrArg _ (if_pos (sdeAsserted_sending sending)))

theorem exec_addressCharacter (running : Running s) (silent : s.sli.sending = none) (v : Byte) :
    exec (.addressCharacter v) s = .next (s.lineMarked v) :=
  (State.event_running running (fun s => if s.sdeAsserted then s else s.lineMarked v)).trans
    (congrArg _ (if_neg (Bool.eq_false_iff.mp (sdeAsserted_silent silent))))

theorem dataRow_taken (running : Running s) (silent : s.sli.sending = none) (v : Byte) :
    s.dataRow v = .next (s.lineData v) :=
  (State.event_running running _).trans
    (congrArg _ (if_neg (Bool.eq_false_iff.mp (sdeAsserted_silent silent))))

/-- The five rows of a data character are one (log 7). -/
theorem exec_dataCharacter {i : Instr}
    (row : i ∈ [.commandCharacter v, .unknownCommand v, .parameterCharacter v, .badLength v, .dataCharacterDuringWait v])
    (s : State) : exec i s = s.dataRow v := by
  simp only [List.mem_cons, List.not_mem_nil, or_false] at row
  obtain rfl | rfl | rfl | rfl | rfl := row
  all_goals rfl

/-! ### Marked characters (R169) -/

/-- A strap address has five bits, so a character is compared with it as a number. -/
theorem eq_address_iff (v : Byte) (a : BitVec 5) : v = a.zeroExtend 8 ↔ v.toNat = a.toNat := by
  rw [← BitVec.toNat_inj, BitVec.toNat_setWidth, Nat.mod_eq_of_lt (by omega)]

/-- The selection a marked character makes, as one frame state and one mark of the broadcast. -/
theorem select_eq (s : State) (v : Byte) : s.select v =
    s.setFrame (if v = 0 ∨ v.toNat = s.sli.address.toNat then .selected else .unselected) (decide (v = 0)) := by
  unfold State.select
  by_cases broadcast : v = 0
  · rw [if_pos broadcast, if_pos (.inl broadcast), decide_eq_true broadcast]
  · rw [if_neg broadcast, decide_eq_false broadcast]
    by_cases own : v.toNat = s.sli.address.toNat
    · rw [if_pos ((eq_address_iff _ _).mpr own), if_pos (.inr own)]
    · rw [if_neg (fun e => own ((eq_address_iff _ _).mp e)), if_neg (not_or.mpr ⟨broadcast, own⟩)]

/-! ### The cancellation of a reply that is due (R166, R172) -/

theorem cancelReply_none (nothingDue : s.sli.reply = none) : s.cancelReply = s := by
  rw [State.cancelReply, nothingDue]

theorem cancelReply_plain {r : Reply} (due : s.sli.reply = some r) (plain : r.softReset = false) :
    s.cancelReply = { s with sli := { s.sli with reply := none, quietTimer := 0 } } := by
  rw [State.cancelReply, due]
  exact if_neg (Bool.eq_false_iff.mp plain)

theorem cancelReply_soft {r : Reply} (due : s.sli.reply = some r) (soft : r.softReset = true) :
    s.cancelReply = s.softReset := by
  rw [State.cancelReply, due]
  exact if_pos soft

/-- The soft reset keeps the straps and a reset in progress; it empties the table and the line's own items (R166). -/
theorem softReset_line (s : State) : s.softReset.inReset = s.inReset ∧ s.softReset.tt.belt = [] ∧
    s.softReset.sli.address = s.sli.address ∧ s.softReset.sli.sending = none ∧ s.softReset.sli.reply = none := by
  obtain ⟨tallies, lanes, channels, underEye, length, flushed⟩ := flush_eq s
  obtain ⟨cleared, clears, -⟩ := clearFailures_eq s.flush
  rw [flushed] at clears
  unfold State.softReset
  rw [flushed, clears]
  exact ⟨rfl, rfl, rfl, rfl, rfl⟩

/-! ### Data characters (R170, R172) -/

/-- A data character has restarted the quiet count (R172). -/
def State.heard (s : State) : State := { s with sli := { s.sli with quietTimer := 0 } }

theorem lineData_selected (selected : s.sli.frame = .selected) : s.lineData v = s.heard.commandChar v := by
  unfold State.lineData
  dsimp only
  rw [selected]
  rfl

theorem lineData_collecting {code : Byte} {ps : List Byte} {shape : FrameShape}
    (collecting : s.sli.frame = .collecting code ps) (known : frameShape code = some shape) :
    s.lineData v = s.heard.collected shape code (ps ++ [v]) := by
  unfold State.lineData
  dsimp only
  rw [collecting]
  dsimp only
  rw [State.paramChar, known]
  rfl

theorem lineData_passed (outside : s.sli.frame = .unselected ∨ s.sli.frame = .ignoring) : s.lineData v = s.heard := by
  unfold State.lineData
  dsimp only
  split
  · rfl
  · rfl
  · simp_all only [reduceCtorEq, or_self]
  · simp_all only [reduceCtorEq, or_self]

theorem commandChar_unknown (station : s.sli.broadcast = false) (unknown : frameShape v = none) :
    s.commandChar v = s.refuseFrame .unknownCommand := by
  unfold State.commandChar
  rw [if_neg (Bool.eq_false_iff.mp station), unknown]

theorem commandChar_collects {shape : FrameShape} (station : s.sli.broadcast = false)
    (known : frameShape v = some shape) (more : paramsNeeded shape [] ≠ 0) :
    s.commandChar v = s.setFrame (.collecting v []) false := by
  unfold State.commandChar
  rw [if_neg (Bool.eq_false_iff.mp station), known]
  exact if_neg more

theorem commandChar_taken {shape : FrameShape} (station : s.sli.broadcast = false)
    (known : frameShape v = some shape) (complete : paramsNeeded shape [] = 0) :
    s.commandChar v = s.takeCommand (commandOf v []) := by
  unfold State.commandChar
  rw [if_neg (Bool.eq_false_iff.mp station), known]
  exact if_pos complete

/-- By broadcast every code but those of HOLD and RESUME is passed over (R170). -/
theorem commandChar_broadcast (broadcast : s.sli.broadcast = true) (notHold : v.toNat ≠ 9) (notResume : v.toNat ≠ 10) :
    s.commandChar v = s.setFrame .ignoring true := by
  unfold State.commandChar
  rw [if_pos broadcast]
  split
  · contradiction
  · contradiction
  · rfl

/-- A framing refusal is answered, whatever reply was due (R170). -/
theorem refuseFrame_answered (addressed : s.sli.address ≠ 0) (st : Status) :
    s.heard.refuseFrame st = answered s st [] :=
  if_neg addressed

/-- The count of a block command is examined as soon as it is there (R170). -/
theorem collected_badLength {shape : FrameShape} {code first : Byte} (block : isBlockShape shape = true)
    (bad : blockCountOk v.toNat = false) : s.collected shape code [first, v] = s.refuseFrame .badLength :=
  if_pos ⟨block, rfl, bad⟩

/-- Parameters that the frame state still lacks are waited for. -/
theorem collected_more {shape : FrameShape} {code : Byte} {ps : List Byte}
    (ok : isBlockShape shape = true → ps.length = 2 → blockCountOk (ps.getD 1 0).toNat = true)
    (more : ps.length < paramsNeeded shape ps) : s.collected shape code ps = s.setFrame (.collecting code ps) false := by
  refine (if_neg ?_).trans (if_pos more)
  rintro ⟨block, two, bad⟩
  rw [ok block two] at bad
  contradiction

/-- With its last parameter the command is taken. -/
theorem collected_taken {shape : FrameShape} {code : Byte} {ps : List Byte}
    (ok : isBlockShape shape = true → ps.length = 2 → blockCountOk (ps.getD 1 0).toNat = true)
    (full : ps.length = paramsNeeded shape ps) : s.collected shape code ps = s.takeCommand (commandOf code ps) := by
  refine (if_neg ?_).trans (if_neg (by omega))
  rintro ⟨block, two, bad⟩
  rw [ok block two] at bad
  contradiction

/-! ### The codes (R174, R175) -/

/-- The codes as the statements list them. -/
theorem frameShape_unknown (unlisted : v.toNat ∉ [1, 2, 3, 4, 8, 9, 10, 11, 16, 17, 18, 19, 24, 25, 26, 27, 28, 32, 33,
    34, 35, 36, 40, 41, 42, 43, 44, 48, 49, 50, 51, 52, 53, 56]) : frameShape v = none := by
  revert v
  decide

/-- The codes that have parameters. -/
theorem frameShape_collects (listed : v.toNat ∈ [2, 3, 8, 16, 17, 18, 19, 24, 25, 26, 27, 28, 32, 33, 34, 35, 36, 40,
    41, 42, 43, 48, 49, 50, 51]) : ∃ shape ∈ frameShape v, paramsNeeded shape [] ≠ 0 := by
  revert v
  decide

/-- The codes of block commands. -/
theorem frameShape_block (listed : v.toNat ∈ [17, 28, 32, 33, 34, 35, 40, 41, 42, 43]) :
    ∃ shape ∈ frameShape v, isBlockShape shape = true := by
  revert v
  decide

/-- The codes of block writes; every record has a character at least. -/
theorem frameShape_blockWrite (listed : v.toNat ∈ [17, 32, 33, 34, 35]) :
    ∃ size, frameShape v = some (.blockWrite size) ∧ 1 ≤ size := by
  simp only [List.mem_cons, List.not_mem_nil, or_false] at listed
  rcases listed with h | h | h | h | h
  all_goals exact ⟨_, by rw [frameShape, h]; rfl, by decide⟩

end Sys2Proof.Machine

open Sys2Proof.Machine Sys2Proof.Safety

/-- Settles O37, by whether the station is sending, and by the reply that is due. -/
theorem addressCharacterSelects : Obligations.AddressCharacterSelects := by
  intro s v running
  refine ⟨fun sending => exec_addressCharacter_sending running sending v, fun silent nothingDue => ?_,
    fun r silent due plain => ?_, fun r silent due soft => ?_⟩
  · rw [exec_addressCharacter running silent, State.lineMarked, cancelReply_none nothingDue, select_eq]
    rfl
  · rw [exec_addressCharacter running silent, State.lineMarked, cancelReply_plain due plain, select_eq]
    rfl
  · obtain ⟨-, empty, address, -, nothingDue⟩ := softReset_line s
    refine ⟨s.softReset.select v, ?_, ?_⟩
    · rw [exec_addressCharacter running silent, State.lineMarked, cancelReply_soft due soft]
    · rw [select_eq, address]
      exact ⟨rfl, rfl, empty, nothingDue, rfl⟩

/-- Settles O38, frame state by frame state. -/
theorem dataCharactersBuildFrames : Obligations.DataCharactersBuildFrames := by
  intro s v i running silent row
  rw [exec_dataCharacter row, dataRow_taken running silent]
  refine ⟨fun selected station addressed => ⟨fun unlisted => ?_, fun listed => ?_⟩,
    fun selected broadcast notHold notResume => ?_, fun code n ps collecting known short => ?_,
    fun code first collecting addressed listed => ⟨fun outside => ?_, fun low high write => ?_⟩, fun outside => ?_⟩
  · rw [lineData_selected selected, commandChar_unknown (s := s.heard) station (frameShape_unknown unlisted),
      refuseFrame_answered addressed]
  · obtain ⟨shape, known, more⟩ := frameShape_collects listed
    rw [lineData_selected selected, commandChar_collects (s := s.heard) station known more]
    rfl
  · rw [lineData_selected selected, commandChar_broadcast (s := s.heard) broadcast notHold notResume, ← broadcast]
    rfl
  · have more : (ps ++ [v]).length < paramsNeeded (.fixed n) (ps ++ [v]) := by
      rw [List.length_append]
      exact short
    rw [lineData_collecting collecting known]
    exact congrArg _ (collected_more (fun block => absurd block Bool.false_ne_true) more)
  · obtain ⟨shape, known, block⟩ := frameShape_block listed
    rw [lineData_collecting collecting known]
    exact congrArg _ ((collected_badLength block (blockCountOk_not outside)).trans (refuseFrame_answered addressed _))
  · obtain ⟨size, known, one⟩ := frameShape_blockWrite write
    have more : 2 < 2 + v.toNat * size := Nat.lt_add_of_pos_right (Nat.mul_pos low one)
    rw [lineData_collecting collecting known]
    exact congrArg _ (collected_more (fun _ _ => blockCountOk_of low high) more)
  · rw [lineData_passed outside]
    rfl
end

section
/-! Section 11.7: the read commands, which answer with the state as it stands (R33 to R35, R74, R112, R153, R174, R175,
R178, R179). -/

namespace Sys2Proof.Machine

open Sys2Proof.Safety

variable {s : State} {first n : Byte} {f : State → State × Answer}

/-! ### Blocks of catalogue records (R74) -/

section Blocks

variable {α : Type} {m : Nat} {v : Vector α m} {chars : α → List Byte} (l : Listening s)
  (reads : f s.frameDone = s.frameDone.blockRead first n v chars)

include l reads

theorem station_blockRead (low : 1 ≤ n.toNat) (high : n.toNat ≤ 64) (inside : first.toNat + n.toNat ≤ m) :
    s.station f = .next (answered s .ok ([first, n] ++ ((v.toList.drop first.toNat).take n.toNat).flatMap chars)) :=
  State.station_answered l (reads.trans (blockRead_ok v chars first n low high inside)) rfl

theorem station_blockRead_outside (low : 1 ≤ n.toNat) (high : n.toNat ≤ 64) (entries : 0 < m)
    (outside : m < first.toNat + n.toNat) : s.station f = .next (answered s .badParam []) :=
  State.station_answered l (reads.trans (blockRead_outside v chars first n low high entries outside)) rfl

theorem station_blockRead_badLength (bad : blockCountOk n.toNat = false) :
    s.station f = .next (answered s .badLength []) := by
  refine State.station_answered l (reads.trans ?_) rfl
  rw [State.blockRead, bad]
  rfl

end Blocks

/-! ### Blocks of lane records (R112) -/

section Lanes

variable (l : Listening s)

include l

theorem readLanes_answered (low : 1 ≤ n.toNat) (high : n.toNat ≤ 64) (lane : 1 ≤ first.toNat)
    (inside : first.toNat + n.toNat ≤ 13) : exec (.readLanes first n) s = .next (answered s .ok
      ([first, n] ++ ((allLanes.drop (first.toNat - 1)).take n.toNat).flatMap s.laneRecordChars)) := by
  have within : blockInside 1 12 first.toNat n.toNat = true := by simp [blockInside, lane, inside]
  refine State.station_answered (f := cmdReadLanes first n) l ?_ rfl
  rw [cmdReadLanes, blockCountOk_of low high, within, blockChars, byteOf_toNat]
  rfl

theorem readLanes_outside (low : 1 ≤ n.toNat) (high : n.toNat ≤ 64)
    (outside : first.toNat = 0 ∨ 13 < first.toNat + n.toNat) :
    exec (.readLanes first n) s = .next (answered s .badParam []) := by
  have beyond : blockInside 1 12 first.toNat n.toNat = false := by
    simp only [blockInside, Bool.and_eq_false_iff, decide_eq_false_iff_not]
    omega
  refine State.station_answered (f := cmdReadLanes first n) l ?_ rfl
  rw [cmdReadLanes, blockCountOk_of low high, beyond]
  rfl

theorem readLanes_badLength (bad : blockCountOk n.toNat = false) :
    exec (.readLanes first n) s = .next (answered s .badLength []) := by
  refine State.station_answered (f := cmdReadLanes first n) l ?_ rfl
  rw [cmdReadLanes, bad]
  rfl

end Lanes

/-- Every block read is refused for a count outside 1 to 64. -/
theorem reads_badLength (l : Listening s) (bad : blockCountOk n.toNat = false) : ∀ i ∈ [Instr.readPatterns first n,
    .readForms first n, .readClasses first n, .readRoutes first n, .readLanes first n],
    exec i s = .next (answered s .badLength []) := by
  simp only [List.forall_mem_cons, List.not_mem_nil, false_imp_iff, implies_true, and_true]
  exact ⟨station_blockRead_badLength (f := cmdReadPatterns first n) l rfl bad,
    station_blockRead_badLength (f := cmdReadForms first n) l rfl bad,
    station_blockRead_badLength (f := cmdReadClasses first n) l rfl bad,
    station_blockRead_badLength (f := cmdReadRoutes first n) l rfl bad, readLanes_badLength l bad⟩

/-! ### READ TICKET (R33) -/

section Tickets

variable (l : Listening s) {slot gen scope lane skip : Byte}

include l

theorem readTicket_answered {t : Ticket} (distinct : SlotsDistinct s) (listed : t ∈ s.tt.belt)
    (here : t.slot.val = slot.toNat) (same : t.generation.toNat = gen.toNat) :
    exec (.readTicket slot gen) s = .next (answered s .ok (s.ticketChars t)) := by
  obtain ⟨range, named⟩ := named?_eq (s := s.frameDone) distinct listed here same
  refine State.station_answered (f := cmdReadTicket slot gen) l ?_ rfl
  rw [cmdReadTicket, range, named]
  rfl

theorem readTicket_stale (slotLow : slot.toNat ≤ 127) (genLow : gen.toNat ≤ 15)
    (stale : ∀ t ∈ s.tt.belt, t.slot.val = slot.toNat → t.generation.toNat ≠ gen.toNat) :
    exec (.readTicket slot gen) s = .next (answered s .stale []) := by
  have range : handleInRange slot gen = true := by simp [handleInRange, slotLow, genLow]
  refine State.station_answered (f := cmdReadTicket slot gen) l ?_ rfl
  rw [cmdReadTicket, range, named?_none (s := s.frameDone) stale]
  rfl

theorem readTicket_badParam (outside : 127 < slot.toNat ∨ 15 < gen.toNat) :
    exec (.readTicket slot gen) s = .next (answered s .badParam []) := by
  have beyond : handleInRange slot gen = false := by
    simp only [handleInRange, Bool.and_eq_false_iff, decide_eq_false_iff_not, not_le]
    exact outside
  refine State.station_answered (f := cmdReadTicket slot gen) l ?_ rfl
  rw [cmdReadTicket, beyond]
  rfl

/-! ### FIND TICKETS (R34) -/

theorem findTickets_notInMode (setup : s.mode = .setup) :
    exec (.findTickets scope lane skip) s = .next (answered s .notInMode []) :=
  State.station_answered (f := cmdFindTickets scope lane skip) l (if_pos setup) rfl

theorem findTickets_badParam (mode : s.mode ≠ .setup) (noScope : s.scope? scope lane = none) :
    exec (.findTickets scope lane skip) s = .next (answered s .badParam []) := by
  refine State.station_answered (f := cmdFindTickets scope lane skip) l ((if_neg mode).trans ?_) rfl
  rw [show s.frameDone.scope? scope lane = _ from noScope]
  rfl

theorem findTickets_answered {ts : List Ticket} (mode : s.mode ≠ .setup) (found : s.scope? scope lane = some ts) :
    exec (.findTickets scope lane skip) s = .next (answered s .ok
      ([byteOf ts.length, byteOf ((ts.drop skip.toNat).take 16).length]
        ++ ((ts.drop skip.toNat).take 16).flatMap Ticket.handleChars)) := by
  refine State.station_answered (f := cmdFindTickets scope lane skip) l ((if_neg mode).trans ?_) rfl
  rw [show s.frameDone.scope? scope lane = _ from found]
  rfl

end Tickets

/-- An unknown scope has no tickets, nor has a queue or a list of no lane. -/
theorem scope?_none {scope lane : Byte}
    (outside : 4 < scope.toNat ∨ ((scope.toNat = 2 ∨ scope.toNat = 3) ∧ (lane.toNat = 0 ∨ 12 < lane.toNat))) :
    s.scope? scope lane = none := by
  unfold State.scope?
  obtain unknown | ⟨route | confirm, noLane⟩ := outside
  · split
    case h_6 => rfl
    all_goals omega
  · rw [route, laneParam?_none noLane]
    rfl
  · rw [confirm, laneParam?_none noLane]
    rfl

/-! ### READ END MONITOR (R153) -/

theorem readEndMonitor_answered (l : Listening s) : exec .readEndMonitor s = .next (answered s .ok
    ([eyeCode s.em.eye] ++ natChars s.em.strays
      ++ [byteOf (s.tt.belt.countP (fun t => t.state == .runningOff)),
        byteOf (s.tt.belt.countP (fun t => t.state == .doubt))]
      ++ natChars s.geo.endDistance ++ [byteOf s.geo.endTolerance])) := by
  rw [List.countP_eq_length_filter, List.countP_eq_length_filter]
  exact State.station_answered (f := cmdReadEndMonitor) l rfl rfl

end Sys2Proof.Machine

open Sys2Proof.Machine Sys2Proof.Safety

/-- Settles O42, command by command; of the block reads those of the catalogue are one operation. -/
theorem readsAnswerAndChangeNothing : Obligations.ReadsAnswerAndChangeNothing := by
  intro s l
  refine ⟨State.station_answered (f := cmdReadStatus) l rfl rfl,
    State.station_answered (f := cmdReadReaderCounters) l rfl rfl,
    State.station_answered (f := cmdReadSettings) l rfl rfl,
    State.station_answered (f := cmdReadTallies) l rfl rfl, readEndMonitor_answered l, fun first n low high => ?_,
    fun first n outside => reads_badLength l (blockCountOk_not outside),
    fun slot gen t distinct listed here same => readTicket_answered l distinct listed here same,
    fun slot gen => readTicket_stale l, fun slot gen => readTicket_badParam l, fun scope lane skip =>
    ⟨fun mode outside => findTickets_badParam l mode (scope?_none outside), findTickets_notInMode l,
      fun ts mode found => findTickets_answered l mode found⟩⟩
  refine ⟨station_blockRead (f := cmdReadPatterns first n) l rfl low high,
    station_blockRead (f := cmdReadForms first n) l rfl low high,
    station_blockRead (f := cmdReadClasses first n) l rfl low high, fun inside => ?_,
    readLanes_answered l low high,
    station_blockRead_outside (f := cmdReadPatterns first n) l rfl low high (by decide), fun outside =>
      ⟨station_blockRead_outside (f := cmdReadForms first n) l rfl low high (by decide) outside,
        station_blockRead_outside (f := cmdReadRoutes first n) l rfl low high (by decide) outside⟩,
    station_blockRead_outside (f := cmdReadClasses first n) l rfl low high (by decide), readLanes_outside l low high⟩
  rw [List.map_eq_flatMap]
  exact station_blockRead (f := cmdReadRoutes first n) l rfl low high inside
end

section
/-! Sections 11.4 to 11.7: the characters of every frame (R170, R174, R175, R178), and the frame sent character by
character as the row that stands for it (log 6). -/

namespace Sys2Proof.Machine

open Sys2Proof.Safety

variable {s : State} {code : Byte} {shape : FrameShape}

/-! ### Values and records as characters (R178, Table 11-4) -/

theorem wordOf_wordChars (w : Word) : wordOf (w.truncate 8) ((w >>> 8).truncate 8) = w := by
  unfold wordOf
  ext i inside
  by_cases low : i < 8
  · simp [low, BitVec.getLsbD_eq_getElem inside]
  · have high : i - 8 < 8 := by omega
    have whole : 8 + (i - 8) = i := by omega
    simp [low, high, whole, BitVec.getLsbD_eq_getElem inside]

theorem wordChars_wordOf (low high : Byte) : wordChars (wordOf low high) = [low, high] := by
  have first : (wordOf low high).truncate 8 = low := by
    unfold wordOf
    ext i inside
    simp
  have second : (wordOf low high >>> 8).truncate 8 = high := by
    unfold wordOf
    ext i inside
    have above : 8 + i < 16 := by omega
    have below : i < 16 := by omega
    simp [above, below, BitVec.getLsbD_eq_getElem inside]
  rw [wordChars, first, second]

theorem geometryRecord_chars (r : GeometryRecord) : geometryRecord? (geometryChars r) = some r := by
  simp only [geometryChars, wordChars, List.cons_append, List.nil_append, geometryRecord?, wordOf_wordChars]

theorem laneRecords_chars (rs : List LaneWrite) : laneRecords (rs.flatMap laneWriteChars) = rs := by
  induction rs with
  | nil => rfl
  | cons r rs ih =>
    rw [List.flatMap_cons]
    simp only [laneWriteChars, wordChars, List.cons_append, List.nil_append, laneRecords, wordOf_wordChars, ih]

theorem patternRecords_chars (rs : List PatternWrite) : patternRecords (rs.flatMap patternWriteChars) = rs := by
  induction rs with
  | nil => rfl
  | cons r rs ih =>
    rw [List.flatMap_cons]
    exact congrArg (r :: ·) ih

theorem classRecords_chars (rs : List ClassWrite) : classRecords (rs.flatMap classWriteChars) = rs := by
  induction rs with
  | nil => rfl
  | cons r rs ih =>
    rw [List.flatMap_cons]
    simp only [classWriteChars, wordChars, List.cons_append, List.nil_append, classRecords, wordOf_wordChars, ih]

/-! ### Parameters complete and incomplete (R170) -/

/-- The parameters are all that a command collects, and the count of a block command is in range. -/
structure Fills (shape : FrameShape) (ps : List Byte) : Prop where
  full : ps.length = paramsNeeded shape ps
  count : isBlockShape shape = true → blockCountOk (ps.getD 1 0).toNat = true

/-- The parameters while some are left are not yet all of them. -/
theorem Fills.more {pre rest : List Byte} (h : Fills shape (pre ++ rest)) (left : rest ≠ []) :
    pre.length < paramsNeeded shape pre := by
  have longer : pre.length < (pre ++ rest).length := by
    rw [List.length_append]
    exact Nat.lt_add_of_pos_right (List.length_pos_iff.mpr left)
  have full := h.full
  cases shape with
  | fixed n => exact full ▸ longer
  | blockRead => exact full ▸ longer
  | blockWrite size =>
    match pre with
    | [] => exact Nat.zero_lt_succ 1
    | [_] => exact Nat.lt_succ_self 1
    | _ :: _ :: _ => exact full ▸ longer

/-- The count of a block command stands among its first two parameters. -/
theorem Fills.countOf {pre rest : List Byte} (h : Fills shape (pre ++ rest)) (block : isBlockShape shape = true)
    (two : pre.length = 2) : blockCountOk (pre.getD 1 0).toNat = true := by
  have count := h.count block
  rwa [List.getD_append _ _ _ _ (by omega)] at count

/-! ### A frame character by character (log 6) -/

theorem inTurn_cons {i : Instr} {is : List Instr} {t : State} (taken : exec i s = .next t) :
    inTurn (i :: is) s = inTurn is t := by
  rw [inTurn, taken]

theorem exec_parameterCharacter (running : Running s) (silent : s.sli.sending = none)
    (known : frameShape code = some shape) {ps : List Byte} (collecting : s.sli.frame = .collecting code ps)
    (v : Byte) :
    exec (.parameterCharacter v) s = .next (s.heard.collected shape code (ps ++ [v])) :=
  (dataRow_taken running silent v).trans (congrArg _ (lineData_collecting collecting known))

/-- The parameters that are left complete the frame, and the command is taken with its last. -/
theorem inTurn_parameters (known : frameShape code = some shape) (rest : List Byte) : ∀ {s : State} {pre : List Byte},
    Running s → s.sli.sending = none → s.sli.frame = .collecting code pre → rest ≠ [] → Fills shape (pre ++ rest) →
    inTurn (rest.map .parameterCharacter) s = .next (s.takeCommand (commandOf code (pre ++ rest))) := by
  induction rest with
  | nil => intro s pre _ _ _ left; exact absurd rfl left
  | cons v rest ih =>
    intro s pre running silent collecting _ fills
    rw [List.append_cons] at fills ⊢
    rw [List.map_cons, inTurn_cons (exec_parameterCharacter running silent known collecting v)]
    by_cases left : rest = []
    · subst left
      rw [List.append_nil] at fills ⊢
      rw [collected_taken (fun block _ => fills.count block) fills.full]
      rfl
    · rw [collected_more fills.countOf (fills.more left),
        ih (s := s.heard.setFrame (.collecting code (pre ++ [v])) false) running silent rfl left fills]
      rfl

/-- The address character of a listening station selects it, and the frame goes on with its command character. -/
theorem inTurn_addressed (l : Listening s) (code : Byte) (is : List Instr) :
    inTurn (.addressCharacter (s.sli.address.zeroExtend 8) :: .commandCharacter code :: is) s =
      inTurn is ((s.setFrame .selected false).heard.commandChar code) := by
  have own : s.select (s.sli.address.zeroExtend 8) = s.setFrame .selected false := by
    have mark : s.sli.address.zeroExtend 8 ≠ 0 := by
      have same := (eq_address_iff _ s.sli.address).mp rfl
      intro zero
      rw [zero] at same
      exact l.addressed (BitVec.eq_of_toNat_eq same.symm)
    exact (if_neg mark).trans (if_pos rfl)
  have selected : exec (.addressCharacter (s.sli.address.zeroExtend 8)) s = .next (s.setFrame .selected false) := by
    rw [exec_addressCharacter l.running l.silent, State.lineMarked, cancelReply_none l.nothingDue, own]
  have coded : exec (.commandCharacter code) (s.setFrame .selected false) =
      .next ((s.setFrame .selected false).heard.commandChar code) :=
    (dataRow_taken (s := s.setFrame .selected false) l.running l.silent code).trans (congrArg _ (lineData_selected rfl))
  rw [inTurn_cons selected, inTurn_cons coded]

/-- The state in which a station collects parameters and has these. -/
def State.collecting (s : State) (code : Byte) (ps : List Byte) : State := s.heard.setFrame (.collecting code ps) false

/-- A command with parameters is collected from its command character on. -/
theorem inTurn_collects (l : Listening s) (known : frameShape code = some shape) (more : paramsNeeded shape [] ≠ 0)
    (is : List Instr) :
    inTurn (.addressCharacter (s.sli.address.zeroExtend 8) :: .commandCharacter code :: is) s =
      inTurn is (s.collecting code []) := by
  rw [inTurn_addressed l, commandChar_collects rfl known more]
  rfl

/-- A frame whose characters come to a listening station, complete and with a count in range. -/
theorem inTurn_frame (l : Listening s) (known : frameShape code = some shape) {ps : List Byte} (fills : Fills shape ps) :
    inTurn (.addressCharacter (s.sli.address.zeroExtend 8) :: .commandCharacter code :: ps.map .parameterCharacter) s =
      .next (s.takeCommand (commandOf code ps)) := by
  by_cases empty : ps = []
  · subst empty
    rw [inTurn_addressed l, commandChar_taken rfl known fills.full.symm]
    rfl
  · have more : paramsNeeded shape [] ≠ 0 := Nat.ne_of_gt (Fills.more (pre := []) fills empty)
    rw [inTurn_collects l known more, inTurn_parameters (s := s.collecting code []) (pre := []) known ps l.running
      l.silent rfl empty fills]
    rfl

/-- The characters of a block read whose count is out of range. -/
theorem inTurn_badLength (l : Listening s) (known : frameShape code = some .blockRead) {first n : Byte}
    (bad : blockCountOk n.toNat = false) :
    inTurn (.addressCharacter (s.sli.address.zeroExtend 8) :: .commandCharacter code ::
      [first, n].map .parameterCharacter) s = .next (answered s .badLength []) := by
  have one : exec (.parameterCharacter first) (s.collecting code []) =
      .next ((s.collecting code []).heard.collected .blockRead code [first]) :=
    exec_parameterCharacter (s := s.collecting code []) l.running l.silent known rfl first
  have two : exec (.parameterCharacter n) (s.collecting code [first]) =
      .next ((s.collecting code [first]).heard.collected .blockRead code [first, n]) :=
    exec_parameterCharacter (s := s.collecting code [first]) l.running l.silent known rfl n
  rw [collected_more (shape := .blockRead) (ps := [first]) (fun _ => nofun) (Nat.lt_succ_self 1)] at one
  rw [collected_badLength rfl bad, refuseFrame_answered (s := s.collecting code [first]) l.addressed] at two
  rw [inTurn_collects l known (by decide)]
  exact (inTurn_cons one).trans (inTurn_cons two)

/-- A row is its frame, sent character by character (log 6). -/
theorem inTurn_row (l : Listening s) {i : Instr} (known : frameShape code = some shape) {ps : List Byte}
    (fills : Fills shape ps) (row : exec i s = s.station (commandOf code ps)) :
    inTurn (.addressCharacter (s.sli.address.zeroExtend 8) :: .commandCharacter code :: ps.map .parameterCharacter) s =
      exec i s := by
  rw [inTurn_frame l known fills, row, State.station_listening l]

/-- A block read is its frame whatever its count: the frame is refused as the command is (R170, R175). -/
theorem inTurn_blockRead (l : Listening s) {i : Instr} (known : frameShape code = some .blockRead) {first n : Byte}
    (row : exec i s = s.station (commandOf code [first, n]))
    (refused : blockCountOk n.toNat = false → exec i s = .next (answered s .badLength [])) :
    inTurn (.addressCharacter (s.sli.address.zeroExtend 8) :: .commandCharacter code ::
      [first, n].map .parameterCharacter) s = exec i s := by
  cases count : blockCountOk n.toNat with
  | true => exact inTurn_row l known ⟨rfl, fun _ => count⟩ row
  | false => rw [inTurn_badLength l known count, refused count]

/-! ### Every frame (R174, R175) -/

/-- A fixed number of parameters has no count among them. -/
theorem fills_fixed (ps : List Byte) : Fills (.fixed ps.length) ps := ⟨rfl, fun block => absurd block Bool.false_ne_true⟩

theorem ofNat_count {n : Nat} (high : n ≤ 64) : (BitVec.ofNat 8 n).toNat = n := by
  rw [BitVec.toNat_ofNat]
  omega

/-- A block write has the characters of 1 to 64 records after its first index and count. -/
theorem fills_block {α : Type} {chars : α → List Byte} {size : Nat} (width : ∀ r, (chars r).length = size)
    (first : Byte) {rs : List α} (low : 1 ≤ rs.length) (high : rs.length ≤ 64) :
    Fills (.blockWrite size) (blockParams first rs chars) := by
  refine ⟨?_, fun _ => (congrArg blockCountOk (ofNat_count high)).trans (blockCountOk_of low high)⟩
  have records : (rs.flatMap chars).length = rs.length * size := by
    rw [List.length_flatMap, List.map_congr_left (fun r _ => width r), List.map_const', List.sum_replicate, smul_eq_mul]
  have needed : paramsNeeded (.blockWrite size) (blockParams first rs chars) = 2 + rs.length * size :=
    congrArg (2 + · * size) (ofNat_count high)
  rw [needed, blockParams, List.length_append, records]
  rfl

/-- Every row of a command comes to the state that its characters come to. -/
theorem inTurn_frameOf (l : Listening s) {i : Instr} {ps : List Byte} (frame : FrameOf i code ps) :
    inTurn (.addressCharacter (s.sli.address.zeroExtend 8) :: .commandCharacter code :: ps.map .parameterCharacter) s =
      exec i s := by
  cases frame with
  | readStatus | readReaderCounters | setMode | hold | resume | softReset | writeCarrier | testStroke | openLane
  | closeLane | rackExchanged | writeCatalogueSettings | readCatalogueSettings | readTicket | findTickets | redirect
  | pull | readTallies | clearTallies | readEndMonitor => exact inTurn_row l rfl (fills_fixed _) rfl
  | ackAttention w =>
    exact inTurn_row l rfl (fills_fixed _) (congrArg (fun w => s.station (cmdAckAttention w)) (wordOf_wordChars w).symm)
  | setMask w =>
    exact inTurn_row l rfl (fills_fixed _) (congrArg (fun w => s.station (cmdSetMask w)) (wordOf_wordChars w).symm)
  | setCapacity lane w =>
    exact inTurn_row l rfl (fills_fixed _)
      (congrArg (fun w => s.station (cmdSetCapacity lane w)) (wordOf_wordChars w).symm)
  | writeGeometry r =>
    exact inTurn_row l rfl (fills_fixed _)
      (congrArg (fun r => s.station (cmdWriteGeometry r)) (Option.some.inj (geometryRecord_chars r)).symm)
  | writeLanes first rs low high =>
    exact inTurn_row l rfl (fills_block (chars := laneWriteChars) (fun _ => rfl) first low high)
      (congrArg (fun rs => s.station (cmdWriteLanes first rs)) (laneRecords_chars rs).symm)
  | writePatterns first rs low high =>
    exact inTurn_row l rfl (fills_block (chars := patternWriteChars) (fun _ => rfl) first low high)
      (congrArg (fun rs => s.station (cmdWritePatterns first rs)) (patternRecords_chars rs).symm)
  | writeForms first rs low high =>
    exact inTurn_row l rfl (fills_block (chars := fun b => [b]) (fun _ => rfl) first low high)
      (congrArg (fun rs => s.station (cmdWriteForms first rs)) (List.flatMap_singleton' rs).symm)
  | writeClasses first rs low high =>
    exact inTurn_row l rfl (fills_block (chars := classWriteChars) (fun _ => rfl) first low high)
      (congrArg (fun rs => s.station (cmdWriteClasses first rs)) (classRecords_chars rs).symm)
  | writeRoutes first rs low high =>
    exact inTurn_row l rfl (fills_block (chars := fun b => [b]) (fun _ => rfl) first low high)
      (congrArg (fun rs => s.station (cmdWriteRoutes first rs)) (List.flatMap_singleton' rs).symm)
  | readLanes first n | readPatterns first n | readForms first n | readClasses first n | readRoutes first n =>
    exact inTurn_blockRead l rfl rfl (fun bad => reads_badLength (first := first) l bad _ (by simp))

/-! ### HOLD and RESUME by broadcast (R161, R170) -/

/-- With its reply cancelled a part runs on and sends nothing. -/
theorem cancelReply_silent (silent : s.sli.sending = none) :
    s.cancelReply.inReset = s.inReset ∧ s.cancelReply.sli.sending = none := by
  unfold State.cancelReply
  split
  · exact ⟨rfl, silent⟩
  · split
    · obtain ⟨reset, -, -, sending, -⟩ := softReset_line s
      exact ⟨reset, sending⟩
    · exact ⟨rfl, silent⟩

theorem broadcasting_taken (running : Running s) (silent : s.sli.sending = none) (f : State → State × Answer) :
    s.broadcasting f = .next (s.cancelReply.takeBroadcast f) :=
  (State.event_running running (fun s => if s.sdeAsserted then s else s.cancelReply.takeBroadcast f)).trans
    (congrArg _ (if_neg (Bool.eq_false_iff.mp (sdeAsserted_silent silent))))

/-- The address character 0 cancels a reply that is due, and the command character is the command, whatever the strap
address. -/
theorem inTurn_broadcast (running : Running s) (silent : s.sli.sending = none) {f : State → State × Answer}
    (command : ∀ t : State, t.sli.broadcast = true → t.commandChar code = t.takeBroadcast f) :
    inTurn [.addressCharacter 0, .commandCharacter code] s = s.broadcasting f := by
  obtain ⟨reset, sending⟩ := cancelReply_silent silent
  have selected : exec (.addressCharacter 0) s = .next (s.cancelReply.setFrame .selected true) :=
    exec_addressCharacter running silent 0
  have taken : exec (.commandCharacter code) (s.cancelReply.setFrame .selected true) =
      .next (s.cancelReply.takeBroadcast f) := by
    refine (dataRow_taken (s := s.cancelReply.setFrame .selected true) (reset.trans running) sending
      code).trans ?_
    rw [lineData_selected rfl, command _ rfl]
    rfl
  rw [inTurn_cons selected, inTurn_cons taken, broadcasting_taken running silent]
  rfl

end Sys2Proof.Machine

open Sys2Proof.Machine Sys2Proof.Safety

/-- Settles O39: the five codes and every other are frames of a row, and HOLD and RESUME by broadcast are one form. -/
theorem framesFromCharacters : Obligations.FramesFromCharacters := by
  refine ⟨fun s l => ⟨inTurn_frameOf l .readStatus, fun low high => ?_, fun k => inTurn_frameOf l (.writeCarrier k),
    fun slot gen => inTurn_frameOf l (.readTicket slot gen), fun first records low high => ?_⟩,
    fun s i code params l frame => inTurn_frameOf l frame, fun s running silent =>
    ⟨inTurn_broadcast running silent (fun _ broadcast => if_pos broadcast),
      inTurn_broadcast running silent (fun _ broadcast => if_pos broadcast)⟩⟩
  · have frame := inTurn_frameOf l (.setMask (wordOf low high))
    rwa [wordChars_wordOf] at frame
  · have frame := inTurn_frameOf l (.writeForms first records low high)
    rwa [blockParams, List.flatMap_singleton', List.map_append] at frame
end

section
/-! Sections 11.1 to 11.3: characters in error, the frame gap, and the course of a reply (R168, R171 to R173). -/

namespace Sys2Proof.Machine

open Sys2Proof.Safety

variable {s : State} {r : Reply}

/-! ### Characters in error (R171) -/

theorem exec_lineError {c : LineChar} (running : Running s) (silent : s.sli.sending = none) (bad : c.good = false) :
    exec (.lineError c) s = .next s.lineInError := by
  have taken := State.event_running running (fun s => if s.sdeAsserted then s else s.lineReceives c)
  rw [sdeAsserted_silent silent, State.lineReceives, bad] at taken
  exact taken

/-- The error is counted and the station UNSELECTED. -/
def State.garbled (s : State) : State :=
  { s with sli := { s.sli with
    lineErrors := min (s.sli.lineErrors + 1) 65535, frame := .unselected, broadcast := false, gapTimer := 0 } }

theorem lineInError_eq (s : State) : s.lineInError = s.garbled.cancelReply := rfl

/-- A reply that is due goes with its quiet count; with none due that count stands. -/
theorem cancelReply_garbled (plain : ∀ r, s.sli.reply = some r → r.softReset = false) :
    s.garbled.cancelReply = { s with sli := { s.sli with
      lineErrors := min (s.sli.lineErrors + 1) 65535, frame := .unselected, broadcast := false, gapTimer := 0
      reply := none, quietTimer := if s.sli.reply = none then s.sli.quietTimer else 0 } } := by
  cases due : s.sli.reply with
  | none => rw [cancelReply_none (s := s.garbled) due, if_pos rfl, ← due, State.garbled]
  | some r =>
    rw [cancelReply_plain (s := s.garbled) due (plain r due), if_neg (Option.some_ne_none r)]
    rfl

/-! ### The frame gap (R171) -/

theorem framing_of (within : s.sli.frame = .selected ∨ ∃ code ps, s.sli.frame = .collecting code ps) :
    s.framing = true := by
  unfold State.framing
  obtain frame | ⟨code, ps, frame⟩ := within
  · rw [frame]
  · rw [frame]

theorem framing_of_not (outside : s.sli.frame = .unselected ∨ s.sli.frame = .ignoring) : s.framing = false := by
  unfold State.framing
  obtain frame | frame := outside
  · rw [frame]
  · rw [frame]

theorem exec_frameGapTimeout (running : Running s) : exec .frameGapTimeout s = .next (s.awaitTimer .frameGap) :=
  State.event_running running (fun s => s.awaitTimer .frameGap)

/-- The gap that abandons a frame is more than 10 ms. -/
theorem awaitTimer_frameGap (within : s.framing = true) (passed : 10000 < s.sli.gapTimer) :
    s.awaitTimer .frameGap = s.abandonFrame := by
  refine State.awaitTimer_due ((if_pos within).trans (congrArg some ?_))
  exact Nat.sub_eq_zero_of_le passed

/-- Outside a frame there is no gap. -/
theorem awaitTimer_noFrame (outside : s.framing = false) : s.awaitTimer .frameGap = s :=
  State.awaitTimer_stopped (if_neg (Bool.eq_false_iff.mp outside))

/-! ### The course of a reply (R172, R173) -/

theorem exec_replyStart (running : Running s) (due : s.sli.reply = some r)
    (quiet : 2 * (12 * lineBitTime s.sli.baud) ≤ s.sli.quietTimer) : exec .replyStart s = .next s.beginReply := by
  have ended : s.timeLeft .quiet = some 0 := by
    rw [State.timeLeft, due]
    exact congrArg some (Nat.sub_eq_zero_of_le quiet)
  exact (State.event_running running (fun s => s.awaitTimer .quiet)).trans (congrArg _ (State.awaitTimer_due ended))

theorem exec_replyEnd (running : Running s) (sending : s.sli.sending = some r)
    (sent : (r.data.length + 2) * (12 * lineBitTime s.sli.baud) ≤ s.sli.sendTimer) :
    exec .replyEnd s = .next s.endReply := by
  have ended : s.timeLeft .replySent = some 0 := by
    rw [State.timeLeft, sending]
    exact congrArg some (Nat.sub_eq_zero_of_le sent)
  exact (State.event_running running (fun s => s.awaitTimer .replySent)).trans (congrArg _ (State.awaitTimer_due ended))

/-- The end of a reply but that to SOFT RESET releases SDE and no more. -/
theorem endReply_plain (sending : s.sli.sending = some r) (plain : r.softReset = false) : s.endReply = s.silenced := by
  unfold State.endReply
  rw [sending]
  exact if_neg (Bool.eq_false_iff.mp plain)

/-- What the characters of a reply carry (R168, R172). -/
theorem values_replyLine (s : State) (r : Reply) : (s.replyLine r).map LineChar.value =
    (0x40 + s.sli.address.zeroExtend 8) :: r.status.code :: r.data := by
  have values : LineChar.value ∘ lineCharOf false = id := funext (lineCharOf_value false)
  rw [State.replyLine, List.map_cons, List.map_map, values, List.map_id, lineCharOf_value]

/-- The header alone is marked. -/
theorem marks_replyLine (s : State) (r : Reply) : (s.replyLine r).map LineChar.marked =
    true :: List.replicate (r.data.length + 1) false := by
  have marks : LineChar.marked ∘ lineCharOf false = Function.const Byte false := funext (lineCharOf_marked false)
  rw [State.replyLine, List.map_cons, List.map_map, marks, List.map_const, lineCharOf_marked]
  rfl

theorem good_replyLine (s : State) (r : Reply) : ∀ c ∈ s.replyLine r, c.good = true := by
  rw [State.replyLine, List.forall_mem_cons, List.forall_mem_map]
  exact ⟨lineCharOf_good true _, fun v _ => lineCharOf_good false v⟩

end Sys2Proof.Machine

open Sys2Proof.Machine Sys2Proof.Safety

/-- Settles O40, by the frame state and the reply that is due. -/
theorem lineErrorsAndFrameGap : Obligations.LineErrorsAndFrameGap := by
  intro s running
  refine ⟨fun c bad silent plain => ?_, fun within passed => ?_, fun outside => ?_⟩
  · rw [exec_lineError running silent bad, lineInError_eq, cancelReply_garbled plain]
  · rw [exec_frameGapTimeout running, awaitTimer_frameGap (framing_of within) passed]
    rfl
  · rw [exec_frameGapTimeout running, awaitTimer_noFrame (framing_of_not outside)]

/-- Settles O41: the two timers at their limits, and the characters of the reply. -/
theorem repliesBeginAndEnd : Obligations.RepliesBeginAndEnd := by
  intro s r running
  refine ⟨fun due quiet => ?_, fun sending sent plain => ?_, values_replyLine s r, marks_replyLine s r,
    good_replyLine s r⟩
  · rw [exec_replyStart running due quiet, State.beginReply, due]
  · rw [exec_replyEnd running sending sent, endReply_plain sending plain]
    rfl
end

section
/-! Section 11.5: the attention flags, their mask and the ATTN output (R176, R177). -/

namespace Sys2Proof.Machine

open Sys2Proof.Safety

variable {s : State} {f : Flag}

/-! ### Flags as bits (R178) -/

/-- The flags in bit order. -/
def allFlags : List Flag :=
  [.laneFull, .laneFault, .tableFull, .tableHigh, .readerErr, .noRead, .beltStopped, .holdEntered, .overlength, .endStray]

theorem allFlags_index (f : Flag) : allFlags[f.index]? = some f := by cases f <;> rfl

theorem Flag.index_lt (f : Flag) : f.index < 10 := (List.getElem?_eq_some_iff.mp (allFlags_index f)).1

theorem Flag.index_injective : Function.Injective Flag.index := by
  intro f g same
  have found := allFlags_index f
  rw [same, allFlags_index g] at found
  exact (Option.some.inj found).symm

/-- Each of the ten bits is a flag. -/
theorem Flag.exists_index {i : Nat} (inside : i < 10) : ∃ f : Flag, f.index = i := by
  have every : ∀ i : Fin 10, ∃ f ∈ allFlags, f.index = i.val := by decide
  obtain ⟨f, -, index⟩ := every ⟨i, inside⟩
  exact ⟨f, index⟩

theorem Flag.bit_eq (f : Flag) : f.bit = BitVec.twoPow 10 f.index := rfl

theorem Flag.getLsbD_bit (f g : Flag) : f.bit.getLsbD g.index = decide (g = f) := by
  rw [Flag.bit_eq, BitVec.getLsbD_twoPow, decide_eq_true f.index_lt, Bool.true_and]
  exact decide_eq_decide.mpr ⟨fun same => Flag.index_injective same.symm, fun same => same ▸ rfl⟩

/-- A flag is set when its bit is. -/
theorem flagSet_eq (s : State) (f : Flag) : s.flagSet f = s.sli.flags.getLsbD f.index := by
  have nonzero : f.bit ≠ 0 := by cases f <;> decide
  rw [State.flagSet, Flag.bit_eq, BitVec.and_twoPow, ← Flag.bit_eq]
  cases s.sli.flags.getLsbD f.index with
  | true => exact bne_iff_ne.mpr nonzero
  | false => rfl

/-- Two flag words have a bit in common when both have the bit of some flag. -/
theorem and_ne_zero_iff (v w : BitVec 10) :
    v &&& w ≠ 0 ↔ ∃ f : Flag, v.getLsbD f.index = true ∧ w.getLsbD f.index = true := by
  constructor
  · intro common
    by_contra noFlag
    refine common (BitVec.eq_of_getLsbD_eq (fun i inside => ?_))
    obtain ⟨f, rfl⟩ := Flag.exists_index inside
    rw [BitVec.getLsbD_and, show BitVec.getLsbD (0 : BitVec 10) f.index = false from BitVec.getLsbD_zero]
    exact Bool.eq_false_iff.mpr (fun both => noFlag ⟨f, Bool.and_eq_true_iff.mp both⟩)
  · rintro ⟨f, left, right⟩ zero
    have bit := BitVec.getLsbD_and (x := v) (y := w) (i := f.index)
    rw [zero, left, right] at bit
    exact Bool.false_ne_true (BitVec.getLsbD_zero.symm.trans bit)

/-! ### Setting and acknowledging (R176, R177) -/

theorem flagSet_raise_eq (s : State) (f g : Flag) : (s.raise f).flagSet g = (s.flagSet g || decide (g = f)) := by
  rw [flagSet_eq, flagSet_eq, State.flags_raise, BitVec.getLsbD_or, Flag.getLsbD_bit]

theorem flagSet_acknowledge (s : State) (w : Word) (f : Flag) :
    (s.acknowledge w).flagSet f = (s.flagSet f && !w.getLsbD f.index) := by
  have inside := f.index_lt
  rw [flagSet_eq, flagSet_eq, State.acknowledge]
  simp [inside]

/-! ### ATTN (R176) -/

/-- ATTN is active while some flag is both set and enabled. -/
theorem attnActive_iff (s : State) : s.attnActive = true ↔
    Running s ∧ ∃ f : Flag, s.flagSet f = true ∧ s.sli.mask.getLsbD f.index = true := by
  rw [State.attnActive, Bool.and_eq_true_iff, Option.isNone_iff_eq_none, bne_iff_ne, and_ne_zero_iff]
  exact and_congr_right fun _ => exists_congr fun f => and_congr_left fun _ => by rw [flagSet_eq]

theorem attnLevel_active (running : Running s) (set : s.flagSet f = true)
    (enabled : s.sli.mask.getLsbD f.index = true) : s.attnLevel = false := by
  rw [State.attnLevel, (attnActive_iff s).mpr ⟨running, f, set, enabled⟩]
  rfl

theorem attnLevel_inactive (masked : ∀ f : Flag, s.flagSet f = true → s.sli.mask.getLsbD f.index = false) :
    s.attnLevel = true := by
  have inactive : s.attnActive ≠ true := by
    rw [Ne, attnActive_iff]
    rintro ⟨-, f, set, enabled⟩
    rw [masked f set] at enabled
    contradiction
  rw [State.attnLevel, Bool.eq_false_iff.mpr inactive]
  rfl

end Sys2Proof.Machine

open Sys2Proof.Machine Sys2Proof.Safety

/-- Settles O43, flag by flag: what raises, acknowledges and enables them speaks of their bits. -/
theorem attentionAcknowledgedAndMasked : Obligations.AttentionAcknowledgedAndMasked := by
  refine ⟨fun s w l => ⟨State.station_answered (t := s.acknowledge w) (f := cmdAckAttention w) l rfl rfl,
    State.station_answered (t := s.setMaskTo w) (f := cmdSetMask w) l rfl rfl⟩, fun s f w named => ⟨?_, ?_, ?_⟩,
    fun s f running set enabled => attnLevel_active running set enabled, fun s masked => attnLevel_inactive masked,
    flagSet_raise, fun s l => ?_⟩
  · rw [flagSet_acknowledge, named, Bool.not_true, Bool.and_false]
  · exact flagSet_raise (s.acknowledge w) f
  · intro g other
    rw [flagSet_raise_eq, decide_eq_false other, Bool.or_false]
  · refine ⟨[s.mode.code, s.mode.heldCode, guardCode s.mc.guard, s.bcu.motion.code, s.mc.cause.code],
      wordChars (s.sli.mask.zeroExtend 16) ++ ([byteOf s.liveCount, byteOf s.pendingSet.length]
        ++ wordChars s.bcu.count ++ natChars s.bcu.p8 ++ natChars s.sli.lineErrors), rfl, ?_⟩
    exact State.station_answered (f := cmdReadStatus) l rfl rfl
end

section
/-! The step on a queue with a command in front (log 1). -/

namespace Sys2Proof.Machine

/-- With `step_empty`, all a step can do: the queue is empty, or its front is taken. -/
theorem step_queued {s : State} {c : Instr} {rest : List Instr} (h : s.pending = c :: rest) :
    step s = exec c { s with pending := rest } := by
  unfold step; rw [h]

end Sys2Proof.Machine

open Sys2Proof.Machine

/-- Settles O1: the queue written into the state is the one the step reads, and its rest is written over it. -/
theorem stepTakesFrontCommand : Obligations.StepTakesFrontCommand := by
  intro c rest s
  exact step_queued (s := { s with pending := c :: rest }) rfl
end
